-- ==== Sys2Proof/Word.lean ====
section
/-! DEFINITION. The words of the block and the plain types of its bus: bytes, flash addresses, the two encoded words, wire
widths, the transport kinds and the Command Descriptor (spec/00_scope.md R7, spec/30_encoding.md R81, R83, R84). -/
namespace Sys2Proof

/-- A byte is 8 bits (R7). -/
abbrev Byte := BitVec 8

/-- A flash address is a 24-bit unsigned number (R6 `ADDR_BITS`, R51). -/
abbrev Addr := BitVec 24

/-- The packed form of a Command Descriptor, 43 bits (R83). -/
abbrev BusWord := BitVec 43

/-- A host request word: operation code and operands (R85; the layout is the model's, log entry 11). -/
abbrev HostWord := BitVec 72

/-- How many signal lines carry a phase of a transaction (R16, R81). There is no dual width in this hardware. -/
inductive Width where
  | none
  | single
  | quad
  deriving DecidableEq, Repr

/-- Which of the four transport primitives carries a transaction (R84). -/
inductive Kind where
  | command
  | write
  | read
  | arm
  deriving DecidableEq, Repr

/-- A Command Descriptor: the immutable value that describes one bus transaction (R27, R81). -/
structure Descriptor where
  opcode  : Byte
  iw      : Width
  aw      : Width
  dw      : Width
  address : Option Addr
  dummy   : BitVec 5
  deriving DecidableEq, Repr

/-- The invariant of R81: "`address_width != none` iff `address` is present". -/
abbrev Descriptor.legal (d : Descriptor) : Prop := d.aw ≠ .none ↔ d.address.isSome = true

end Sys2Proof
end

