-- ==== Sys2Proof/Config.lean ====
section
/-! DEFINITION. The parameters of spec/00_scope.md R6 that the source fixes, the OPEN parameters as one structure, and the
free values: opaque constants with no body, of which nothing can be proved. -/
namespace Sys2Proof.Config

/-- `PAGE_SIZE`: bytes in one program page (R6; unaudited, U9). -/
def pageSize : Nat := 8

/-- The size of the 24-bit address space, `2^24` (R6 `ADDR_BITS`, R8). -/
def addrSpace : Nat := 16777216

/-- `ID_LEN`: bytes returned by the identification read (R6, R215). -/
def idLen : Nat := 3

/-- `DUMMY_READ`: dummy cycles of the region read (R6, R96). -/
def dummyRead : BitVec 5 := 8

/-- `DUMMY_MMAP`: dummy cycles of the memory-map template (R6, R93, R96). -/
def dummyMmap : BitVec 5 := 8

/-- `BLOCK32_SIZE` (R6). -/
def block32Size : Nat := 32768

/-- `BLOCK64_SIZE` (R6). -/
def block64Size : Nat := 65536

/-- The parameters that have no source value (R6: "the model takes it as an argument and no rule may assume a value for
it"), and the parameters of the reference device RefFlash (spec/92_eei_decisions.md, after the table). -/
structure Params where
  /-- `SECTOR_SIZE`, OPEN (D25). -/
  sectorSize : Nat
  /-- `FLASH_SIZE`, OPEN, at most `2^24` (D25). -/
  flashSize : Nat
  /-- `MMAP_BASE`, OPEN (D25). -/
  mmapBase : Nat
  /-- `READ_PARAMS`, OPEN (D17). -/
  readParams : Byte
  /-- `ERASED_BYTE`, OPEN (D26, U8). -/
  erasedByte : Byte
  /-- `REF_ID` of RefFlash: its three bytes, first received first. -/
  refId0 : Byte
  refId1 : Byte
  refId2 : Byte
  /-- `B_reset`, `B_erase`, `B_prog` of RefFlash: the poll counts. -/
  bReset : Nat
  bErase : Nat
  bProg : Nat
  deriving DecidableEq, Repr, Inhabited

/-- The parameters of the machine at hand (log entry 7): no body, so no proof can see a value. -/
opaque params : Params

/-- The free value number `n` where the spec leaves a byte open (R117, U4, U5, U14, U16, U17; log entry 5). -/
opaque freeByte : Nat → Byte

/-- The free value number `n` where the spec leaves a number open (R24, R25, R38, U14; log entries 5, 9). -/
opaque freeNat : Nat → Nat

/-- The free value number `n` where the spec leaves the whole flash array open: what the device may have made of it
(R31, R117, U5, U6, U10; log entry 5). -/
opaque freeCells : Nat → List (Nat × Byte)

end Sys2Proof.Config
end

