-- ==== Sys2Proof/Syntax.lean ====
section
/-! DEFINITION. The instructions: one constructor per row of spec/opcode_table.json, the 17 bus commands of
spec/30_encoding.md R86 (format BUS43) and then the 17 host operations of R87 (format HOST5). -/
namespace Sys2Proof

/-- The two levels of instruction (R80). A bus command carries only what its 43-bit word carries: the length of the
data phase is no field of a descriptor (R81). A host operation carries its operands (R85, R92); the buffers `Src` and
`Dst` stay with the host (R25, R56). -/
inductive Instr where
  /-- RDID, 0x9F: identification read (R215). -/
  | rdid
  /-- RSTEN, 0x66: enable reset; `w` is the width bit, quad in the first pair of RESET (R89, R178). -/
  | rsten (w : Bool)
  /-- RST, 0x99: reset; `w` as for RSTEN (R89, R178). -/
  | rst (w : Bool)
  /-- WREN, 0x06: write enable (R171). -/
  | wren
  /-- CE, 0xC7: chip erase (R176). -/
  | ce
  /-- SE, 0x20: sector erase (R173). -/
  | se (a : Addr)
  /-- BE32, 0x52: block erase 32K (R174). -/
  | be32 (a : Addr)
  /-- BE64, 0xD8: block erase 64K (R175). -/
  | be64 (a : Addr)
  /-- QPP, 0x32: quad page program (R177). -/
  | qpp (a : Addr)
  /-- QREAD, 0x6B: quad I/O fast read, the discrete region read (R216, conflict C4). -/
  | qread (a : Addr)
  /-- QIOREAD, 0xEB: the memory-map template (R93, R133). -/
  | qioread
  /-- ENQPI, 0x38: enter QPI (R132). -/
  | enqpi
  /-- SRP, 0xC0: set read parameters, always quad (R88, R132). -/
  | srp
  /-- RDSR1, 0x05: read Status Register 1; `q` is the mode bit `qia` (R88, R152). -/
  | rdsr1 (q : Bool)
  /-- WRSR1, 0x01: write Status Register 1 (R153). -/
  | wrsr1 (q : Bool)
  /-- RDCR, 0x35: read the Configuration Register (R154). -/
  | rdcr (q : Bool)
  /-- WRCR, 0x31: write the Configuration Register (R155). -/
  | wrcr (q : Bool)
  /-- INIT, op 0x01 (R179). -/
  | init
  /-- RESET, op 0x02 (R178). -/
  | reset
  /-- ENABLE_QUAD, op 0x03 (R131). -/
  | enableQuad
  /-- ENTER_QPI, op 0x04 (R132). -/
  | enterQpi
  /-- ENTER_MEMORY_MAP, op 0x05 (R133). -/
  | enterMemoryMap
  /-- READ_SR1, op 0x06 (R152). -/
  | readSr1
  /-- WRITE_SR1, op 0x07 (R153). -/
  | writeSr1 (v : Byte)
  /-- READ_CR, op 0x08 (R154). -/
  | readCr
  /-- WRITE_CR, op 0x09 (R155). -/
  | writeCr (v : Byte)
  /-- SECTOR_ERASE, op 0x0A (R173). -/
  | sectorErase (a : Addr)
  /-- BLOCK_ERASE_32K, op 0x0B (R174). -/
  | blockErase32k (a : Addr)
  /-- BLOCK_ERASE_64K, op 0x0C (R175). -/
  | blockErase64k (a : Addr)
  /-- CHIP_ERASE, op 0x0D (R176). -/
  | chipErase
  /-- PAGE_PROGRAM, op 0x0E, of `n` bytes of `Src` (R177). -/
  | pageProgram (a : Addr) (n : Nat)
  /-- WRITE_REGION, op 0x0F, of `n` bytes of `Src` (R200). -/
  | writeRegion (a : Addr) (n : Nat)
  /-- READ_IDENTIFY, op 0x10 (R215). -/
  | readIdentify
  /-- READ_REGION, op 0x11, of `n` bytes into `Dst` (R216). -/
  | readRegion (a : Addr) (n : Nat)
  deriving DecidableEq, Repr

end Sys2Proof
end

