-- ==== Sys2Proof/WellFormed.lean ====
section
/-! DEFINITION. When an instruction term is one the spec's encodings admit. The types hold every other bound (24-bit
addresses, byte values, one width bit). -/
namespace Sys2Proof

/-- A length operand is "a natural, at most `2^24`" (R85). -/
def lengthOk (n : Nat) : Bool := decide (n ≤ Config.addrSpace)

/-- The well-formed instructions: the length operands of R85 are in range. -/
def Instr.wellFormed : Instr → Bool
  | .rdid => true
  | .rsten _ => true
  | .rst _ => true
  | .wren => true
  | .ce => true
  | .se _ => true
  | .be32 _ => true
  | .be64 _ => true
  | .qpp _ => true
  | .qread _ => true
  | .qioread => true
  | .enqpi => true
  | .srp => true
  | .rdsr1 _ => true
  | .wrsr1 _ => true
  | .rdcr _ => true
  | .wrcr _ => true
  | .init => true
  | .reset => true
  | .enableQuad => true
  | .enterQpi => true
  | .enterMemoryMap => true
  | .readSr1 => true
  | .writeSr1 _ => true
  | .readCr => true
  | .writeCr _ => true
  | .sectorErase _ => true
  | .blockErase32k _ => true
  | .blockErase64k _ => true
  | .chipErase => true
  | .pageProgram _ n => lengthOk n
  | .writeRegion _ n => lengthOk n
  | .readIdentify => true
  | .readRegion _ n => lengthOk n

end Sys2Proof
end

