-- ==== Sys2Proof/Decode.lean ====
section
/-! DEFINITION. Decoding, total on every word and rejecting by name, and after it the encoder: the 43-bit bus word of
spec/30_encoding.md R83, R86, R97 and the host request word of R85, R87 (layout: log entry 11). -/
namespace Sys2Proof

/-- Why a word is no instruction. -/
inductive DecodeError where
  /-- A width field holds the reserved code `10` (R82, R90). -/
  | reservedWidth
  /-- `aw = none` and the address bits are not all zero (R83, R90). -/
  | addressWithoutWidth
  /-- The opcode byte is none of the 17 of R86 (R90). -/
  | unknownOpcode
  /-- The opcode is listed and another field differs from its row (R90, R97). -/
  | fieldMismatch
  /-- The operation code is `0x00` or `0x12` to `0x1F` (R91). -/
  | unassignedCode
  /-- A bit of the request word outside the five operand fields is set (log entry 11). -/
  | reservedBits
  /-- An operand the operation does not take is not zero (log entry 11). -/
  | strayOperand
  /-- The length is over `2^24` (R85). -/
  | lengthRange
  deriving DecidableEq, Repr

/-- An encoded instruction: a bus word or a host request word. -/
inductive CodeWord where
  | bus (w : BusWord)
  | host (w : HostWord)
  deriving DecidableEq, Repr

/-! ### Device opcodes (R86) -/

def opRDID : Byte := 0x9F
def opRSTEN : Byte := 0x66
def opRST : Byte := 0x99
def opWREN : Byte := 0x06
def opCE : Byte := 0xC7
def opSE : Byte := 0x20
def opBE32 : Byte := 0x52
def opBE64 : Byte := 0xD8
def opQPP : Byte := 0x32
def opQREAD : Byte := 0x6B
def opQIOREAD : Byte := 0xEB
def opENQPI : Byte := 0x38
def opSRP : Byte := 0xC0
def opRDSR1 : Byte := 0x05
def opWRSR1 : Byte := 0x01
def opRDCR : Byte := 0x35
def opWRCR : Byte := 0x31

/-! ### Descriptors (R81, R86) -/

/-- A mode-dependent width: quad when the bit is set, else single (R82, R88). -/
def widthOfBit (q : Bool) : Width := if q then .quad else .single

/-- An opcode-only command at instruction width `w` (R115). -/
def opcodeOnly (op : Byte) (w : Width) : Descriptor :=
  { opcode := op, iw := w, aw := .none, dw := .none, address := none, dummy := 0 }

/-- A register access: `iw = dw`, no address, no dummy cycles (R88, R157). -/
def registerAccess (op : Byte) (w : Width) : Descriptor :=
  { opcode := op, iw := w, aw := .none, dw := w, address := none, dummy := 0 }

/-- A command with a single-wire instruction and a single-wire address phase (R86, R89). -/
def addressed (op : Byte) (dw : Width) (a : Addr) (dummy : BitVec 5) : Descriptor :=
  { opcode := op, iw := .single, aw := .single, dw := dw, address := some a, dummy := dummy }

/-- The memory-map template (R93). -/
def mmapTemplate : Descriptor :=
  { opcode := opQIOREAD, iw := .quad, aw := .quad, dw := .quad, address := some 0, dummy := Config.dummyMmap }

/-- The table of R86: the descriptor of each bus command; a host operation has none. -/
def busDescriptor : Instr → Option Descriptor
  | .rdid => some (registerAccess opRDID .single)
  | .rsten w => some (opcodeOnly opRSTEN (widthOfBit w))
  | .rst w => some (opcodeOnly opRST (widthOfBit w))
  | .wren => some (opcodeOnly opWREN .single)
  | .ce => some (opcodeOnly opCE .single)
  | .se a => some (addressed opSE .none a 0)
  | .be32 a => some (addressed opBE32 .none a 0)
  | .be64 a => some (addressed opBE64 .none a 0)
  | .qpp a => some (addressed opQPP .quad a 0)
  | .qread a => some (addressed opQREAD .quad a Config.dummyRead)
  | .qioread => some mmapTemplate
  | .enqpi => some (opcodeOnly opENQPI .single)
  | .srp => some (registerAccess opSRP .quad)
  | .rdsr1 q => some (registerAccess opRDSR1 (widthOfBit q))
  | .wrsr1 q => some (registerAccess opWRSR1 (widthOfBit q))
  | .rdcr q => some (registerAccess opRDCR (widthOfBit q))
  | .wrcr q => some (registerAccess opWRCR (widthOfBit q))
  | .init => none
  | .reset => none
  | .enableQuad => none
  | .enterQpi => none
  | .enterMemoryMap => none
  | .readSr1 => none
  | .writeSr1 _ => none
  | .readCr => none
  | .writeCr _ => none
  | .sectorErase _ => none
  | .blockErase32k _ => none
  | .blockErase64k _ => none
  | .chipErase => none
  | .pageProgram _ _ => none
  | .writeRegion _ _ => none
  | .readIdentify => none
  | .readRegion _ _ => none

/-! ### The transport kind (R84) -/

/-- The kind of transport call that carries a bus command (R84, R86); a host operation has none. -/
def busKind : Instr → Option Kind
  | .rdid => some .read
  | .rsten _ => some .command
  | .rst _ => some .command
  | .wren => some .command
  | .ce => some .command
  | .se _ => some .command
  | .be32 _ => some .command
  | .be64 _ => some .command
  | .qpp _ => some .write
  | .qread _ => some .read
  | .qioread => some .arm
  | .enqpi => some .command
  | .srp => some .write
  | .rdsr1 _ => some .read
  | .wrsr1 _ => some .write
  | .rdcr _ => some .read
  | .wrcr _ => some .write
  | .init => none
  | .reset => none
  | .enableQuad => none
  | .enterQpi => none
  | .enterMemoryMap => none
  | .readSr1 => none
  | .writeSr1 _ => none
  | .readCr => none
  | .writeCr _ => none
  | .sectorErase _ => none
  | .blockErase32k _ => none
  | .blockErase64k _ => none
  | .chipErase => none
  | .pageProgram _ _ => none
  | .writeRegion _ _ => none
  | .readIdentify => none
  | .readRegion _ _ => none

/-- A kind as two bits, "where wanted" (R84); it is no part of the packed descriptor. -/
def Kind.code : Kind → BitVec 2
  | .command => 0b00
  | .write => 0b01
  | .read => 0b10
  | .arm => 0b11

/-! ### The packed descriptor (R82, R83) -/

/-- The width codes of R82: none `00`, single `01`, quad `11`. -/
def Width.code : Width → BitVec 2
  | .none => 0b00
  | .single => 0b01
  | .quad => 0b11

/-- A width code read back; `10` is reserved (R82). -/
def widthOfCode (c : BitVec 2) : Option Width :=
  match c.toNat with
  | 0 => some .none
  | 1 => some .single
  | 3 => some .quad
  | _ => none

/-- The layout of R83: `[42:35]` opcode, `[34:33]` iw, `[32:31]` aw, `[30:29]` dw, `[28:24]` dummy, `[23:0]` address,
which is all zero when the address is absent. -/
def Descriptor.pack (d : Descriptor) : BusWord :=
  d.opcode ++ (d.iw.code ++ (d.aw.code ++ (d.dw.code ++ (d.dummy ++ d.address.getD 0))))

/-- The descriptor a bus word holds (R83), or why it holds none (R90). -/
def unpack (w : BusWord) : Except DecodeError Descriptor :=
  match widthOfCode (w.extractLsb' 33 2), widthOfCode (w.extractLsb' 31 2), widthOfCode (w.extractLsb' 29 2) with
  | some iw, some aw, some dw =>
    let a := w.extractLsb' 0 24
    if aw = .none then
      if a = 0 then
        .ok { opcode := w.extractLsb' 35 8, iw := iw, aw := aw, dw := dw, address := none, dummy := w.extractLsb' 24 5 }
      else .error .addressWithoutWidth
    else
      .ok { opcode := w.extractLsb' 35 8, iw := iw, aw := aw, dw := dw, address := some a, dummy := w.extractLsb' 24 5 }
  | _, _, _ => .error .reservedWidth

/-! ### Decoding a bus word (R97) -/

/-- "The command is found by the opcode byte alone" (R97); its operands are the address and the width bit. -/
def busCandidate (d : Descriptor) : Option Instr :=
  let a := d.address.getD 0
  let q := decide (d.iw = .quad)
  match d.opcode.toNat with
  | 0x9F => some .rdid
  | 0x66 => some (.rsten q)
  | 0x99 => some (.rst q)
  | 0x06 => some .wren
  | 0xC7 => some .ce
  | 0x20 => some (.se a)
  | 0x52 => some (.be32 a)
  | 0xD8 => some (.be64 a)
  | 0x32 => some (.qpp a)
  | 0x6B => some (.qread a)
  | 0xEB => some .qioread
  | 0x38 => some .enqpi
  | 0xC0 => some .srp
  | 0x05 => some (.rdsr1 q)
  | 0x01 => some (.wrsr1 q)
  | 0x35 => some (.rdcr q)
  | 0x31 => some (.wrcr q)
  | _ => none

/-- Decoding a bus word: the opcode finds the row, and "the remaining fields must then equal the row's" (R97). -/
def decodeBus (w : BusWord) : Except DecodeError Instr :=
  match unpack w with
  | .error e => .error e
  | .ok d =>
    match busCandidate d with
    | none => .error .unknownOpcode
    | some i => if busDescriptor i = some d then .ok i else .error .fieldMismatch

/-! ### Decoding a host request word (R85, R87; layout: log entry 11) -/

/-- The fields of a request word: `[4:0]` op, `[31:8]` addr, `[56:32]` len, `[71:64]` value. -/
structure RequestFields where
  op    : BitVec 5
  addr  : Addr
  len   : BitVec 25
  value : Byte
  deriving DecidableEq, Repr

def requestFields (w : HostWord) : RequestFields :=
  { op := w.extractLsb' 0 5, addr := w.extractLsb' 8 24, len := w.extractLsb' 32 25, value := w.extractLsb' 64 8 }

/-- An operation without operands. -/
def takesNothing (i : Instr) (f : RequestFields) : Except DecodeError Instr :=
  if f.addr = 0 ∧ f.len = 0 ∧ f.value = 0 then .ok i else .error .strayOperand

/-- An operation that takes `value` only. -/
def takesValue (i : Byte → Instr) (f : RequestFields) : Except DecodeError Instr :=
  if f.addr = 0 ∧ f.len = 0 then .ok (i f.value) else .error .strayOperand

/-- An operation that takes `addr` only. -/
def takesAddr (i : Addr → Instr) (f : RequestFields) : Except DecodeError Instr :=
  if f.len = 0 ∧ f.value = 0 then .ok (i f.addr) else .error .strayOperand

/-- An operation that takes `addr` and `len`. -/
def takesRegion (i : Addr → Nat → Instr) (f : RequestFields) : Except DecodeError Instr :=
  if f.value = 0 then
    if lengthOk f.len.toNat then .ok (i f.addr f.len.toNat) else .error .lengthRange
  else .error .strayOperand

/-- Decoding a request by its operation code (R87); the codes `0x00` and `0x12` to `0x1F` are unassigned (R91). -/
def decodeFields (f : RequestFields) : Except DecodeError Instr :=
  match f.op.toNat with
  | 0x01 => takesNothing .init f
  | 0x02 => takesNothing .reset f
  | 0x03 => takesNothing .enableQuad f
  | 0x04 => takesNothing .enterQpi f
  | 0x05 => takesNothing .enterMemoryMap f
  | 0x06 => takesNothing .readSr1 f
  | 0x07 => takesValue .writeSr1 f
  | 0x08 => takesNothing .readCr f
  | 0x09 => takesValue .writeCr f
  | 0x0A => takesAddr .sectorErase f
  | 0x0B => takesAddr .blockErase32k f
  | 0x0C => takesAddr .blockErase64k f
  | 0x0D => takesNothing .chipErase f
  | 0x0E => takesRegion .pageProgram f
  | 0x0F => takesRegion .writeRegion f
  | 0x10 => takesNothing .readIdentify f
  | 0x11 => takesRegion .readRegion f
  | _ => .error .unassignedCode

/-- Decoding a request word: an unassigned code first (R236 tests the code before the operands), then the bits no field
uses, then the operands. -/
def decodeHost (w : HostWord) : Except DecodeError Instr :=
  match decodeFields (requestFields w) with
  | .error .unassignedCode => .error .unassignedCode
  | r => if w.extractLsb' 5 3 = 0 ∧ w.extractLsb' 57 7 = 0 then r else .error .reservedBits

/-- Decoding, total on both kinds of word. -/
def decode : CodeWord → Except DecodeError Instr
  | .bus w => decodeBus w
  | .host w => decodeHost w

/-- The instruction the decoder reads from a table row's bits: a HOST5 row fills one byte, the low byte of a request
word; a BUS43 row fills six, of which the top five bits are no part of the word. -/
def decodeTableWord (nbits w : Nat) : Option Instr :=
  if nbits ≤ 8 then
    match decodeHost (BitVec.ofNat 72 w) with
    | .ok i => some i
    | .error _ => none
  else if w < 2 ^ 43 then
    match decodeBus (BitVec.ofNat 43 w) with
    | .ok i => some i
    | .error _ => none
  else none

/-! ### The encoder (R83, R85, R87) -/

/-- A request word from its fields. -/
def packRequest (op : BitVec 5) (a : Addr) (n : BitVec 25) (v : Byte) : HostWord :=
  v ++ ((0 : BitVec 7) ++ (n ++ (a ++ ((0 : BitVec 3) ++ op))))

/-- The operation code of R87; a bus command has none. -/
def hostCode : Instr → Option (BitVec 5)
  | .rdid => none
  | .rsten _ => none
  | .rst _ => none
  | .wren => none
  | .ce => none
  | .se _ => none
  | .be32 _ => none
  | .be64 _ => none
  | .qpp _ => none
  | .qread _ => none
  | .qioread => none
  | .enqpi => none
  | .srp => none
  | .rdsr1 _ => none
  | .wrsr1 _ => none
  | .rdcr _ => none
  | .wrcr _ => none
  | .init => some 0x01
  | .reset => some 0x02
  | .enableQuad => some 0x03
  | .enterQpi => some 0x04
  | .enterMemoryMap => some 0x05
  | .readSr1 => some 0x06
  | .writeSr1 _ => some 0x07
  | .readCr => some 0x08
  | .writeCr _ => some 0x09
  | .sectorErase _ => some 0x0A
  | .blockErase32k _ => some 0x0B
  | .blockErase64k _ => some 0x0C
  | .chipErase => some 0x0D
  | .pageProgram _ _ => some 0x0E
  | .writeRegion _ _ => some 0x0F
  | .readIdentify => some 0x10
  | .readRegion _ _ => some 0x11

/-- The bus word of a bus command: its descriptor packed (R83, R86). -/
def encodeBus (i : Instr) : Option BusWord := (busDescriptor i).map Descriptor.pack

/-- The operand fields of a host operation: `addr`, `len`, `value` (R87); what it does not take is zero. -/
def hostOperands : Instr → Addr × BitVec 25 × Byte
  | .rdid => (0, 0, 0)
  | .rsten _ => (0, 0, 0)
  | .rst _ => (0, 0, 0)
  | .wren => (0, 0, 0)
  | .ce => (0, 0, 0)
  | .se _ => (0, 0, 0)
  | .be32 _ => (0, 0, 0)
  | .be64 _ => (0, 0, 0)
  | .qpp _ => (0, 0, 0)
  | .qread _ => (0, 0, 0)
  | .qioread => (0, 0, 0)
  | .enqpi => (0, 0, 0)
  | .srp => (0, 0, 0)
  | .rdsr1 _ => (0, 0, 0)
  | .wrsr1 _ => (0, 0, 0)
  | .rdcr _ => (0, 0, 0)
  | .wrcr _ => (0, 0, 0)
  | .init => (0, 0, 0)
  | .reset => (0, 0, 0)
  | .enableQuad => (0, 0, 0)
  | .enterQpi => (0, 0, 0)
  | .enterMemoryMap => (0, 0, 0)
  | .readSr1 => (0, 0, 0)
  | .writeSr1 v => (0, 0, v)
  | .readCr => (0, 0, 0)
  | .writeCr v => (0, 0, v)
  | .sectorErase a => (a, 0, 0)
  | .blockErase32k a => (a, 0, 0)
  | .blockErase64k a => (a, 0, 0)
  | .chipErase => (0, 0, 0)
  | .pageProgram a n => (a, BitVec.ofNat 25 n, 0)
  | .writeRegion a n => (a, BitVec.ofNat 25 n, 0)
  | .readIdentify => (0, 0, 0)
  | .readRegion a n => (a, BitVec.ofNat 25 n, 0)

/-- The words of an instruction: a bus word if R86 gives it a descriptor, else a request word. -/
def encode (i : Instr) : CodeWord :=
  match busDescriptor i with
  | some d => .bus d.pack
  | none => .host (packRequest ((hostCode i).getD 0) (hostOperands i).1 (hostOperands i).2.1 (hostOperands i).2.2)

end Sys2Proof
end

