-- ==== Sys2Proof/Machine/State.lean ====
section
/-! DEFINITION. The state of the machine as plain data: the block, the transport, the device, the host and the environment
(spec/10_state.md R20, spec/00_scope.md R12), the reasons a step can stop, and the state after hardware reset (R34). -/
namespace Sys2Proof.Machine

/-- Why the machine stops with a fault. The block's own fault, Fatal(PageBoundary), is NOT here: its entry is described
by R237 and the machine takes it as a next state with `ctl` halted. -/
inductive Fault where
  /-- Raised by a window load of which some byte lies outside the window, whose extent is the flash byte space (R55).
  Safe: the machine stops. -/
  | outsideWindow
  deriving DecidableEq, Repr

/-- Why the machine refuses. "`refuse` = the model has no such transition" (spec/93_implementation_defined.md, part 1):
nothing is issued and no state changes (R234). Every refusal is safe: nothing is claimed about what the hardware does. -/
inductive Refusal where
  /-- Raised by a dispatcher's arm that has no meaning. Safe. -/
  | notModelled (mnemonic : String)
  /-- Raised by a host request when `ctl = Halted` (R234 item 1, R238). Safe. -/
  | halted
  /-- Raised by a host request when `ctl = Busy` (R234 item 2, R118). Safe. -/
  | busy
  /-- Raised by a request whose code is `0x00` or `0x12` to `0x1F` (R234 item 3, R91). Safe. -/
  | unassignedCode
  /-- Raised by a host request when `mode = MemoryMapped` (R234 item 4, R136), and by a bus command put on a port whose
  window is armed (U1: "any discrete command after the memory-mapped state is entered"). Safe. -/
  | memoryMapped
  /-- Raised by PAGE_PROGRAM, WRITE_REGION and READ_REGION when `len = 0` (R234 item 5). Safe. -/
  | zeroLength
  /-- Raised by the same three when `addr + len > 2^24` (R234 item 6). Safe. -/
  | pastTop
  /-- Raised by WRITE_REGION when `Src` has fewer than `len` bytes (R205 (c); log entry 15). Safe. -/
  | shortSource
  /-- Raised by a request word that breaks the model's own layout (log entry 11). Safe. -/
  | malformedRequest
  /-- Raised by the transport port on a word that is not one of R86; the block never produces one (R90). Safe. -/
  | unknownCommand
  /-- Raised by the transport port on a data phase of a length R86 does not give the command, or empty where R111 and
  R112 want at least one byte; the block never produces one (log entry 17). Safe. -/
  | dataLength
  /-- Raised by a window load while the window is not armed: "outside this spec" (R217, R274). Safe. -/
  | windowNotArmed
  /-- Raised by a window load of zero bytes: the width is at least 1 (D32). Safe. -/
  | emptyLoad
  deriving DecidableEq, Repr

/-- The tracked interface mode, in its order (R21). -/
inductive Mode where
  | singleWire
  | quadRegisterEnabled
  | qpi
  | memoryMapped
  deriving DecidableEq, Repr

/-- The control state (R23). -/
inductive Ctl where
  | idle
  | busy
  | halted
  deriving DecidableEq, Repr

/-- The causes of a fault: there is one, code 1 (R231). -/
inductive Cause where
  | pageBoundary
  deriving DecidableEq, Repr

/-- A transport call with its arguments: the packed descriptor, the payload of a `T.write` and the byte count of a
`T.read` of variable length (R81, R111, R112). -/
structure Call where
  word  : BusWord
  tx    : List Byte
  count : Nat
  deriving DecidableEq, Repr

/-- The byte handed to WRITE_REGISTER: the `value` operand (R153, R155), the byte just read with `QE_BIT` set (R131), or
`READ_PARAMS` (R132). -/
inductive RegisterArg where
  | latch
  | readWithQe
  | readParams
  deriving DecidableEq, Repr

/-- The statements of the pseudocode of files 41 to 45: a position inside an operation is the list of statements still to
run (R23). The first three hold a transport call; the others are local or call a procedure. -/
inductive Stmt where
  /-- A transport call whose descriptor does not depend on `qia` (R115, R116). -/
  | issue (c : Call)
  /-- READ_REGISTER(opcode), R150. -/
  | readRegister (opcode : Byte)
  /-- WRITE_REGISTER(opcode, v), R151. -/
  | writeRegister (opcode : Byte) (v : RegisterArg)
  /-- `if (cr & QE_BIT) = 0 then …` of ENABLE_QUAD, R131. -/
  | testQe
  /-- `if mode = SingleWire then mode <- QuadRegisterEnabled`, R131. -/
  | raiseMode
  /-- A call of ENTER_QPI, R132. -/
  | enterQpi
  /-- `mode <- QPI`, R132. -/
  | setQpi
  /-- `mode <- MemoryMapped`, R133. -/
  | setMapped
  /-- `if (s & WIP_BIT) = 0 then return`, else once more round the loop of WAIT_UNTIL_IDLE, R172. -/
  | testWip
  /-- A call of PAGE_PROGRAM(a, n, Src[off .. off+n]), R177. -/
  | pageProgram (a : Addr) (n off : Nat)
  /-- `cursor <- addr`, `remaining <- len`, `src_off <- 0` of WRITE_REGION, R200. -/
  | startChunks
  /-- The head of the loop of WRITE_REGION, R200. -/
  | chunkLoop
  /-- The three assignments at the end of the loop body of WRITE_REGION, R200. -/
  | advance
  /-- Handing the bytes read to the host, R152, R154, R215. -/
  | returnBytes
  /-- `for i in 0 .. len-1: Dst[i] <- b[i]`, R216. -/
  | storeDst
  deriving DecidableEq, Repr

/-- A transport event of the trace (R11). The width, address and dummy fields are those of the descriptor. -/
inductive Event where
  | cmd (d : Descriptor)
  | wr (d : Descriptor) (bytes : List Byte)
  | rd (d : Descriptor) (n : Nat) (bytes : List Byte)
  | arm (d : Descriptor)
  deriving DecidableEq, Repr

/-- What the host last received from the block (R13, R237, R249). -/
inductive Response where
  | nothing
  | done (values : List Byte)
  | fault (c : Cause)
  deriving DecidableEq, Repr

/-- A request: the request word and the bytes of the source buffer the host names with it (R56, R85). -/
structure Request where
  word : HostWord
  src  : List Byte
  deriving DecidableEq, Repr

/-- A move of the host (R12, R249): a request, or a load of `k` bytes at a host address. There is no store (U7). -/
inductive HostMove where
  | request (r : Request)
  | load (address k : Nat)
  deriving DecidableEq, Repr

/-- The device's real interface mode (R31). -/
inductive Iface where
  | singleWire
  | qpi
  deriving DecidableEq, Repr

/-- The hidden state of the device (R28, R29, R31). `flash` lists the bytes that differ from `ERASED_BYTE`. -/
structure Device where
  sr1   : Byte
  cr    : Byte
  flash : List Host.Cell
  busy  : Nat
  iface : Iface
  deriving DecidableEq, Repr

/-- Which environment answers (R117): the unconstrained oracle, which is the normative one, or the reference device
RefFlash of spec/92_eei_decisions.md, which is no part of the hardware (D26; log entry 6). -/
inductive Env where
  | oracle
  | refFlash
  deriving DecidableEq, Repr

/-- The state of the whole machine. -/
structure State where
  /-- The tracked mode (R21). -/
  mode : Mode
  /-- The control state (R23). -/
  ctl : Ctl
  /-- The position while Busy: the statements still to run (R23). -/
  rest : List Stmt
  /-- The bytes the last `T.read` returned, until the statement that asked for them has used them (R26). -/
  rx : List Byte
  /-- The working registers of the chunker (R24). -/
  cursor : Nat
  remaining : Nat
  srcOff : Nat
  chunkLen : Nat
  /-- The operand latches (R25). -/
  op : BitVec 5
  addr : Addr
  len : Nat
  value : Byte
  /-- The payload and the byte count of the transport call being issued (R111, R112). -/
  tx : List Byte
  count : Nat
  /-- The armed window and its template (R32). -/
  window : Option Descriptor
  /-- The trace, oldest event first (R33). -/
  trace : List Event
  /-- The host's buffers (R56). -/
  src : List Byte
  dst : List Byte
  /-- What the host last received (R13, R249), and the word its last window load returned (R217). -/
  response : Response
  loaded : Option Nat
  /-- The host's coming moves, next one first (R12; log entry 12). -/
  agenda : List HostMove
  /-- Hardware reset has been applied and not yet taken (R260; log entry 14). -/
  resetPending : Bool
  /-- The device (R31). -/
  device : Device
  /-- The model's own: which environment answers, the bytes it has lined up for coming reads, and the number of the next
  free value (log entries 5, 6). -/
  env : Env
  replies : List Byte
  fresh : Nat
  /-- The OPEN parameters (R6; log entry 7). No step changes them. -/
  params : Config.Params
  deriving DecidableEq, Repr

/-- The state after hardware reset (R34). `mode`, `ctl`, `window` and `trace` are the spec's; the rest is unspecified
there and named in log entries 8 and 10. -/
def State.reset : State where
  mode := .singleWire
  ctl := .idle
  rest := []
  rx := []
  cursor := 0
  remaining := 0
  srcOff := 0
  chunkLen := 1
  op := 0
  addr := 0
  len := 0
  value := 0
  tx := []
  count := 0
  window := none
  trace := []
  src := []
  dst := []
  response := .nothing
  loaded := none
  agenda := []
  resetPending := false
  device := { sr1 := 0, cr := 0, flash := [], busy := 0, iface := .singleWire }
  env := .oracle
  replies := []
  fresh := 0
  params := Config.params

/-- The three outcomes of a step of this machine. -/
abbrev Result := Host.Outcome State Fault Refusal

end Sys2Proof.Machine
end

