-- ==== Sys2Proof/Machine/Flags.lean ====
section
/-! DEFINITION. The flags and condition bits, the complete list of spec/10_state.md R30, and the masks of R6. -/
namespace Sys2Proof.Machine

/-- `WIP_BIT`: Write-In-Progress, bit 0 of Status Register 1 (R6, R28). -/
def wipBit : Byte := 0x01

/-- `QE_BIT`: Quad-Enable, bit 1 of the Configuration Register, and the mask of its mirror in Status Register 1 (R6). -/
def qeBit : Byte := 0x02

/-- `(s & WIP_BIT) != 0`: the only bit WAIT_UNTIL_IDLE tests (R172). -/
def wipSet (b : Byte) : Bool := decide (b &&& wipBit ≠ 0)

/-- `(cr & QE_BIT) != 0` (R131). -/
def qeSet (b : Byte) : Bool := decide (b &&& qeBit ≠ 0)

/-- The byte with Quad-Enable set and "other bits as read" (R131, D13). -/
def withQe (b : Byte) : Byte := b ||| qeBit

/-- `quad_interface_active`: a function of the tracked mode (R22). -/
def Mode.quadActive : Mode → Bool
  | .singleWire => false
  | .quadRegisterEnabled => false
  | .qpi => true
  | .memoryMapped => true

/-- `qia` of a state (R22). -/
def State.qia (s : State) : Bool := s.mode.quadActive

/-- The place of a mode in the order of R21. -/
def Mode.rank : Mode → Nat
  | .singleWire => 0
  | .quadRegisterEnabled => 1
  | .qpi => 2
  | .memoryMapped => 3

end Sys2Proof.Machine
end

