-- ==== Sys2Proof/Machine/Operands.lean ====
section
/-! DEFINITION. Every operand form: the operands of a host request and their preconditions (spec/30_encoding.md R87, R92,
spec/60_exceptions.md R234), the mode-dependent width (R157), the transport calls of the bus commands, and the slices of
the source buffer (R92). -/
namespace Sys2Proof.Machine

/-- The operand forms of the host operations (R87). -/
inductive Operands where
  | nothing
  | value (v : Byte)
  | addr (a : Addr)
  /-- `addr` and `len`, with the destination buffer (READ_REGION). -/
  | dstRegion (a : Addr) (n : Nat)
  /-- `addr` and `len`, with the source buffer (PAGE_PROGRAM). -/
  | srcPage (a : Addr) (n : Nat)
  /-- `addr` and `len`, with a source buffer of at least `len` bytes (WRITE_REGION, R205 (c)). -/
  | srcRegion (a : Addr) (n : Nat)
  deriving DecidableEq, Repr

/-- Items 5 and 6 of R234, in that order: `len >= 1`, then `addr + len <= 2^24`. -/
def regionRefusal (a : Addr) (n : Nat) : Option Refusal :=
  if n = 0 then some .zeroLength
  else if Config.addrSpace < a.toNat + n then some .pastTop
  else none

/-- What refuses the operands, if anything (R234). The length of `Src` is a precondition of WRITE_REGION alone, tested last
(R205 (c), R236; log entry 15). The page check of PAGE_PROGRAM refuses nothing: it faults once the request is accepted (R177,
R236). -/
def operandRefusal (o : Operands) (src : List Byte) : Option Refusal :=
  match o with
  | .nothing => none
  | .value _ => none
  | .addr _ => none
  | .dstRegion a n => regionRefusal a n
  | .srcPage a n => regionRefusal a n
  | .srcRegion a n =>
    match regionRefusal a n with
    | some r => some r
    | none => if src.length < n then some .shortSource else none

/-- Latching the operands of an accepted request: only those the operation takes are written (R25). -/
def latch (code : BitVec 5) (o : Operands) (s : State) : State :=
  match o with
  | .nothing => { s with op := code }
  | .value v => { s with op := code, value := v }
  | .addr a => { s with op := code, addr := a }
  | .dstRegion a n => { s with op := code, addr := a, len := n }
  | .srcPage a n => { s with op := code, addr := a, len := n }
  | .srcRegion a n => { s with op := code, addr := a, len := n }

/-- `m = if qia then quad else single` (R88, R157). -/
def modeWidth (s : State) : Width := widthOfBit s.qia

/-- The transport call of a bus command: the word of its descriptor, with a payload and a count (R116). A host operation
has no descriptor and is never asked for one. -/
def busCall (i : Instr) (tx : List Byte) (count : Nat) : Call :=
  { word := ((busDescriptor i).map Descriptor.pack).getD 0, tx := tx, count := count }

/-- The call of a register access: widths by `qia`, "read once, at the moment the descriptor is built" (R157). -/
def registerCall (opcode : Byte) (tx : List Byte) (s : State) : Call :=
  { word := (registerAccess opcode (modeWidth s)).pack, tx := tx, count := 0 }

/-- `Src[off .. off+n]` (R92, R200). -/
def srcSlice (src : List Byte) (off n : Nat) : List Byte := (src.drop off).take n

/-- `for i in 0 .. len-1: Dst[i] <- b[i]`: the first bytes of the buffer are written, any further ones stay (R216). -/
def writeDst (dst b : List Byte) : List Byte := b ++ dst.drop b.length

/-- The byte `b[0]` a register read returned (R150). A `T.read` returns at least one byte, so the default is never taken. -/
def firstByte (b : List Byte) : Byte := b.headD 0

/-- The value WRITE_REGISTER sends (R131, R132, R153, R155). -/
def registerArg (v : RegisterArg) (s : State) : Byte :=
  match v with
  | .latch => s.value
  | .readWithQe => withQe (firstByte s.rx)
  | .readParams => s.params.readParams

/-- The condition of the page check: `(addr mod PAGE_SIZE) + len > PAGE_SIZE` (R177). -/
def crossesPage (a : Addr) (n : Nat) : Bool := decide (Config.pageSize < a.toNat % Config.pageSize + n)

/-- The chunk law: `min(PAGE_SIZE - (c mod PAGE_SIZE), r)` (R201). -/
def chunkLength (c r : Nat) : Nat := min (Config.pageSize - c % Config.pageSize) r

end Sys2Proof.Machine
end

