-- ==== Sys2Proof/Machine/Ops.lean ====
section
/-! DEFINITION. The named operations: the flash array as a canonical list of cells, the free values, the environment's
answer to a transport call (spec/40_transport_and_descriptor.md R110 to R117, spec/92_eei_decisions.md RefFlash), the four
transport primitives, the end of an operation, taking the fault and hardware reset. -/
namespace Sys2Proof.Machine

/-! ### The flash array (spec/20_memory.md R51, R58) -/

/-- How many bytes the flash array has: `FLASH_SIZE`, "at most `2^24`" (R6). -/
def flashBytes (p : Config.Params) : Nat := min p.flashSize Config.addrSpace

/-- The canonical form: addresses strictly rising and inside the array, no byte listed that reads as an unlisted one. -/
abbrev Memory.wf (p : Config.Params) (m : List Host.Cell) : Prop :=
  m.Pairwise (fun c d => c.1 < d.1) ∧ ∀ c ∈ m, c.1 < flashBytes p ∧ c.2 ≠ p.erasedByte

/-- The byte at an address; an unlisted one reads as `ERASED_BYTE` (log entry 10). -/
def Memory.read (p : Config.Params) : List Host.Cell → Nat → Byte
  | [], _ => p.erasedByte
  | c :: m, a => if c.1 = a then c.2 else Memory.read p m a

/-- Puts `v` at `a` in a rising list, dropping the entry when `v` is the unlisted value `e`. -/
def Memory.insert (e : Byte) (a : Nat) (v : Byte) : List Host.Cell → List Host.Cell
  | [] => if v = e then [] else [(a, v)]
  | c :: m =>
    if a < c.1 then (if v = e then c :: m else (a, v) :: c :: m)
    else if a = c.1 then (if v = e then m else (a, v) :: m)
    else c :: Memory.insert e a v m

/-- Writing one byte; an address outside the array holds nothing (U6; log entry 6). -/
def Memory.write (p : Config.Params) (a : Nat) (v : Byte) (m : List Host.Cell) : List Host.Cell :=
  if a < flashBytes p then Memory.insert p.erasedByte a v m else m

/-- Erasing `size` bytes from `lo`: each reads as `ERASED_BYTE` afterwards (R53). -/
def Memory.erase (lo size : Nat) (m : List Host.Cell) : List Host.Cell :=
  m.filter (fun c => decide (c.1 < lo ∨ lo + size ≤ c.1))

/-- The `n` bytes from `a`, lowest address first (R58). -/
def Memory.readBytes (p : Config.Params) (m : List Host.Cell) (a n : Nat) : List Byte :=
  (List.range n).map (fun i => Memory.read p m (a + i))

/-- Any list of cells brought into the canonical form. -/
def Memory.normalise (p : Config.Params) (cells : List Host.Cell) : List Host.Cell :=
  cells.foldl (fun m c => Memory.write p c.1 c.2 m) []

/-- `b[0] + 256*b[1] + ...`: the little-endian word of a byte sequence (R57, R217). -/
def littleEndian : List Byte → Nat
  | [] => 0
  | b :: bs => b.toNat + 256 * littleEndian bs

/-! ### The environment -/

/-- `n` bytes of the environment's choice: those lined up, then free bytes numbered from `k` (R117; log entry 5). -/
def drawBytes : Nat → List Byte → Nat → List Byte × List Byte × Nat
  | 0, rs, k => ([], rs, k)
  | n + 1, r :: rs, k => (r :: (drawBytes n rs k).1, (drawBytes n rs k).2)
  | n + 1, [], k => (Config.freeByte k :: (drawBytes n [] (k + 1)).1, (drawBytes n [] (k + 1)).2)

/-- Taking `n` bytes of the environment's choice. -/
def State.draw (n : Nat) (s : State) : List Byte × State :=
  ((drawBytes n s.replies s.fresh).1,
    { s with replies := (drawBytes n s.replies s.fresh).2.1, fresh := (drawBytes n s.replies s.fresh).2.2 })

/-- The payload of a program, `Src[off .. off+n]` (R92). A byte the buffer does not hold is one the spec does not state: it
is a free byte, so that the payload has its `n` bytes whatever `Src` is (log entry 15). -/
def payload (off n : Nat) (s : State) : List Byte :=
  srcSlice s.src off n ++ (drawBytes (n - (srcSlice s.src off n).length) [] s.fresh).1

/-- The numbers of the free bytes of a payload are used up. -/
def takePayload (off n : Nat) (s : State) : State :=
  { s with fresh := s.fresh + (n - (srcSlice s.src off n).length) }

/-- What a transaction does to the device under the oracle: anything at all (R31, R117, U5, U6, U10, U16; log entry 5). -/
def freeDevice (s : State) : State :=
  { s with
    device :=
      { sr1 := Config.freeByte s.fresh, cr := Config.freeByte (s.fresh + 1),
        flash := Memory.normalise s.params (Config.freeCells s.fresh), busy := Config.freeNat s.fresh,
        iface := if Config.freeNat (s.fresh + 1) % 2 = 0 then .singleWire else .qpi }
    fresh := s.fresh + 2 }

/-- RefFlash: one byte of a program; a byte that is not erased becomes unspecified (U5). -/
def programByte (a : Nat) (b : Byte) (s : State) : State :=
  if Memory.read s.params s.device.flash a = s.params.erasedByte then
    { s with device := { s.device with flash := Memory.write s.params a b s.device.flash } }
  else
    { s with
      device := { s.device with flash := Memory.write s.params a (Config.freeByte s.fresh) s.device.flash }
      fresh := s.fresh + 1 }

/-- RefFlash: "byte `i` of a payload sent with a program at address `a` is stored at flash address `a + i`" (R58). -/
def programBytes : Nat → List Byte → State → State
  | _, [], s => s
  | a, b :: bs, s => programBytes (a + 1) bs (programByte a b s)

/-- RefFlash: the region of `size` bytes that contains `a` is erased, and the device is busy (R53). -/
def eraseRegion (a size : Nat) (s : State) : State :=
  { s with device :=
      { s.device with flash := Memory.erase (a - a % size) size s.device.flash, busy := s.params.bErase } }

/-- The status byte of RefFlash: `sr1` with bit 0 showing whether the device is busy. -/
def refStatus (d : Device) : Byte := (d.sr1 &&& 0xFE) ||| (if 0 < d.busy then 1 else 0)

/-- RefFlash: the bytes it returns to a read of `n` bytes. -/
def refReply (d : Descriptor) (n : Nat) (s : State) : List Byte × State :=
  match d.opcode.toNat with
  | 0x05 => ([refStatus s.device], s)
  | 0x35 => ([s.device.cr], s)
  | 0x9F => ([s.params.refId0, s.params.refId1, s.params.refId2], s)
  | 0x6B =>
    if (d.address.getD 0).toNat + n ≤ flashBytes s.params then
      (Memory.readBytes s.params s.device.flash (d.address.getD 0).toNat n, s)
    else s.draw n
  | _ => s.draw n

/-- RefFlash: what an event does to it, the table of spec/92_eei_decisions.md. -/
def refEffect (d : Descriptor) (tx : List Byte) (s : State) : State :=
  match d.opcode.toNat with
  | 0x99 => { s with device := { s.device with busy := s.params.bReset } }
  | 0x20 => eraseRegion (d.address.getD 0).toNat s.params.sectorSize s
  | 0x52 => eraseRegion (d.address.getD 0).toNat Config.block32Size s
  | 0xD8 => eraseRegion (d.address.getD 0).toNat Config.block64Size s
  | 0xC7 => { s with device := { s.device with flash := [], busy := s.params.bErase } }
  | 0x32 =>
    let t := programBytes (d.address.getD 0).toNat tx s
    { t with device := { t.device with busy := t.params.bProg } }
  | 0x05 => { s with device := { s.device with busy := s.device.busy - 1 } }
  | 0x01 => { s with device := { s.device with sr1 := tx.headD s.device.sr1 } }
  | 0x31 => { s with device := { s.device with cr := tx.headD s.device.cr } }
  | _ => s

/-- The environment's part of a transport call: the bytes it returns to a read of `n` bytes (`n = 0` for the other
primitives) and what becomes of the device (R112, R117, D30). -/
def respond (d : Descriptor) (n : Nat) (s : State) : List Byte × State :=
  match s.env with
  | .oracle => ((s.draw n).1, freeDevice (s.draw n).2)
  | .refFlash =>
    if n = 0 then ([], refEffect d s.tx s)
    else ((refReply d n s).1, refEffect d s.tx (refReply d n s).2)

/-! ### The transport primitives -/

/-- The event of a call (R11). -/
def eventOf (k : Kind) (d : Descriptor) (n : Nat) (tx reply : List Byte) : Event :=
  match k with
  | .command => .cmd d
  | .write => .wr d tx
  | .read => .rd d n reply
  | .arm => .arm d

/-- One transport call that returns (R110 to R114): the environment acts, the event is appended to the trace, a read
delivers its bytes, an arm arms the window; the call's arguments are used up (R116). -/
def transport (k : Kind) (d : Descriptor) (n : Nat) (s : State) : State :=
  let r := respond d n s
  { r.2 with
    trace := r.2.trace ++ [eventOf k d n s.tx r.1]
    rx := if k = .read then r.1 else r.2.rx
    window := if k = .arm then some d else r.2.window
    tx := []
    count := 0 }

/-- A port whose window is armed takes no discrete command (R136, U1). -/
def portOpen (s : State) (r : Result) : Result :=
  if s.window.isSome then .refused .memoryMapped else r

/-- `T.command(d)` (R110). -/
def busCommand (d : Descriptor) (s : State) : Result :=
  portOpen s (.next (transport .command d 0 s))

/-- `T.write(d, bytes)` with a payload of 1 to `most` bytes (R86, R111). -/
def busWrite (d : Descriptor) (most : Nat) (s : State) : Result :=
  portOpen s
    (if s.tx.length = 0 ∨ most < s.tx.length then .refused .dataLength else .next (transport .write d 0 s))

/-- `T.read(d, n)`, `n >= 1` (R86, R112). -/
def busRead (d : Descriptor) (n : Nat) (s : State) : Result :=
  portOpen s (if n = 0 then .refused .dataLength else .next (transport .read d n s))

/-- `T.arm_mmap(d)` (R113). -/
def busArm (d : Descriptor) (s : State) : Result :=
  portOpen s (.next (transport .arm d 0 s))

/-! ### The ends of an operation -/

/-- The operand latches are unspecified when no operation is in progress (R25, R38; log entry 9). -/
def freeLatches (s : State) : State :=
  { s with
    op := BitVec.ofNat 5 (Config.freeNat s.fresh)
    addr := BitVec.ofNat 24 (Config.freeNat (s.fresh + 1))
    len := Config.freeNat (s.fresh + 2) % (Config.addrSpace + 1)
    value := Config.freeByte s.fresh
    fresh := s.fresh + 3 }

/-- The working registers are unspecified once WRITE_REGION has ended (R24, R38, R208; log entry 9). -/
def freeWorking (s : State) : State :=
  { s with
    cursor := Config.freeNat s.fresh % (Config.addrSpace + 1)
    remaining := Config.freeNat (s.fresh + 1) % (Config.addrSpace + 1)
    srcOff := Config.freeNat (s.fresh + 2) % (Config.addrSpace + 1)
    chunkLen := 1 + Config.freeNat (s.fresh + 3) % Config.pageSize
    fresh := s.fresh + 4 }

/-- What the host receives at `done`: the values handed over, or none (R13). -/
def doneResponse : Response → Response
  | .nothing => .done []
  | .done bs => .done bs
  | .fault c => .fault c

/-- The end of an operation: `ctl: Busy -> Idle` and `done` (R10, R13, R23). -/
def finish (s : State) : State :=
  freeLatches { s with ctl := .idle, rest := [], rx := [], response := doneResponse s.response }

/-- Taking the fault, `raise Fatal(c)`: `ctl <- Halted`, the host sees `fault`, and nothing else changes (R230, R237); a
halted block has no position. There is no return from it but hardware reset (R238). -/
def raiseFatal (c : Cause) (s : State) : State :=
  { s with ctl := .halted, rest := [], response := .fault c }

/-- Hardware reset: the block and the transport as R34 gives them; the device, the host and its buffers, and the
environment are left alone (R260; log entry 14). -/
def hardwareReset (s : State) : State :=
  { State.reset with
    src := s.src
    dst := s.dst
    agenda := s.agenda
    device := s.device
    env := s.env
    replies := s.replies
    fresh := s.fresh
    params := s.params }

end Sys2Proof.Machine
end

