-- ==== Sys2Proof/Machine/Bus.lean ====
section
/-! DEFINITION. The meanings of the 17 bus commands, one transport call each (spec/30_encoding.md R86), and the transport
port's own dispatcher, which finds the command by decoding the word (R97). -/
namespace Sys2Proof.Machine

/-- RDID: `T.read` of `ID_LEN` bytes, single-wire, no address (R86, R215). -/
def execRdid (s : State) : Result := busRead (registerAccess opRDID .single) Config.idLen s

/-- RSTEN at the width its bit gives (R86, R89, R178). -/
def execRsten (w : Bool) (s : State) : Result := busCommand (opcodeOnly opRSTEN (widthOfBit w)) s

/-- RST at the width its bit gives (R86, R89, R178). -/
def execRst (w : Bool) (s : State) : Result := busCommand (opcodeOnly opRST (widthOfBit w)) s

/-- WREN, single-wire in every mode (R86, R171, D10). -/
def execWren (s : State) : Result := busCommand (opcodeOnly opWREN .single) s

/-- CE, single-wire (R86, R176). -/
def execCe (s : State) : Result := busCommand (opcodeOnly opCE .single) s

/-- SE, the address as given (R86, R173, R181). -/
def execSe (a : Addr) (s : State) : Result := busCommand (addressed opSE .none a 0) s

/-- BE32, the address as given (R86, R174, R181). -/
def execBe32 (a : Addr) (s : State) : Result := busCommand (addressed opBE32 .none a 0) s

/-- BE64, the address as given (R86, R175, R181). -/
def execBe64 (a : Addr) (s : State) : Result := busCommand (addressed opBE64 .none a 0) s

/-- QPP: `T.write` of 1 to `PAGE_SIZE` bytes (R86, R177). -/
def execQpp (a : Addr) (s : State) : Result := busWrite (addressed opQPP .quad a 0) Config.pageSize s

/-- QREAD: `T.read` of `count` bytes, 8 dummy cycles (R86, R216). -/
def execQread (a : Addr) (s : State) : Result := busRead (addressed opQREAD .quad a Config.dummyRead) s.count s

/-- QIOREAD: `T.arm_mmap` with the template (R93, R113, R133). -/
def execQioread (s : State) : Result := busArm mmapTemplate s

/-- ENQPI, the single-wire "enter QPI" opcode (R86, R132). -/
def execEnqpi (s : State) : Result := busCommand (opcodeOnly opENQPI .single) s

/-- SRP: `T.write` of one byte, quad (R86, R88, R132). -/
def execSrp (s : State) : Result := busWrite (registerAccess opSRP .quad) 1 s

/-- RDSR1: `T.read` of one byte (R86, R152). -/
def execRdsr1 (q : Bool) (s : State) : Result := busRead (registerAccess opRDSR1 (widthOfBit q)) 1 s

/-- WRSR1: `T.write` of one byte (R86, R153). -/
def execWrsr1 (q : Bool) (s : State) : Result := busWrite (registerAccess opWRSR1 (widthOfBit q)) 1 s

/-- RDCR: `T.read` of one byte (R86, R154). -/
def execRdcr (q : Bool) (s : State) : Result := busRead (registerAccess opRDCR (widthOfBit q)) 1 s

/-- WRCR: `T.write` of one byte (R86, R155). -/
def execWrcr (q : Bool) (s : State) : Result := busWrite (registerAccess opWRCR (widthOfBit q)) 1 s

/-- What the transport port does with a decoded command. A host operation is no bus command: the block never issues one
(R90, R118). -/
def runBus (i : Instr) (s : State) : Result :=
  match i with
  | .rdid => execRdid s
  | .rsten w => execRsten w s
  | .rst w => execRst w s
  | .wren => execWren s
  | .ce => execCe s
  | .se a => execSe a s
  | .be32 a => execBe32 a s
  | .be64 a => execBe64 a s
  | .qpp a => execQpp a s
  | .qread a => execQread a s
  | .qioread => execQioread s
  | .enqpi => execEnqpi s
  | .srp => execSrp s
  | .rdsr1 q => execRdsr1 q s
  | .wrsr1 q => execWrsr1 q s
  | .rdcr q => execRdcr q s
  | .wrcr q => execWrcr q s
  | .init => .refused .unknownCommand
  | .reset => .refused .unknownCommand
  | .enableQuad => .refused .unknownCommand
  | .enterQpi => .refused .unknownCommand
  | .enterMemoryMap => .refused .unknownCommand
  | .readSr1 => .refused .unknownCommand
  | .writeSr1 _ => .refused .unknownCommand
  | .readCr => .refused .unknownCommand
  | .writeCr _ => .refused .unknownCommand
  | .sectorErase _ => .refused .unknownCommand
  | .blockErase32k _ => .refused .unknownCommand
  | .blockErase64k _ => .refused .unknownCommand
  | .chipErase => .refused .unknownCommand
  | .pageProgram _ _ => .refused .unknownCommand
  | .writeRegion _ _ => .refused .unknownCommand
  | .readIdentify => .refused .unknownCommand
  | .readRegion _ _ => .refused .unknownCommand

end Sys2Proof.Machine
end

