-- ==== Sys2Proof/Machine/Control.lean ====
section
/-! DEFINITION. The sequencer: what each statement of the pseudocode does, one step of a Busy block (one transport call,
spec/00_scope.md R10), and the acceptance of a host request (spec/60_exceptions.md R234). -/
namespace Sys2Proof.Machine

/-- What a statement does: it is local and the next one follows, it makes a transport call after which `before` and then
the following statements run, or it raises the fault. -/
inductive Act where
  | skip (s : State)
  | call (c : Call) (before : List Stmt) (s : State)
  | fatal (s : State)

/-- WAIT_UNTIL_IDLE (R172). -/
def waitUntilIdle : List Stmt := [.readRegister opRDSR1, .testWip]

/-- ENABLE_QUAD (R131). -/
def enableQuadBody : List Stmt := [.readRegister opRDCR, .testQe, .raiseMode]

/-- ENTER_QPI after its early exit and the first statement of ENABLE_QUAD, a fresh read of CR (R131, R132). -/
def afterCrRead : List Stmt :=
  [.testQe, .raiseMode, .issue (busCall .enqpi [] 0), .issue (busCall .wren [] 0), .setQpi,
    .writeRegister opSRP .readParams]

/-- RESET (R178). -/
def resetBody : List Stmt :=
  [.issue (busCall (.rsten true) [] 0), .issue (busCall (.rst true) [] 0), .issue (busCall (.rsten false) [] 0),
    .issue (busCall (.rst false) [] 0)] ++ waitUntilIdle

/-- The pattern of R170, "`write_enable(); issue(cmd); wait_until_idle();`", for an erase command (R176, R183). -/
def eraseBody (cmd : Instr) : List Stmt :=
  [.issue (busCall .wren [] 0), .issue (busCall cmd [] 0)] ++ waitUntilIdle

/-- PAGE_PROGRAM(a, n, Src[off .. off+n]) followed by `k` (R177): the check first, then the pattern of R170. -/
def pageProgramAct (a : Addr) (n off : Nat) (k : List Stmt) (s : State) : Act :=
  if crossesPage a n then .fatal s
  else .call (busCall .wren [] 0)
    (.issue (busCall (.qpp a) (payload off n s) 0) :: (waitUntilIdle ++ k)) (takePayload off n s)

/-- What one statement does. A byte read is gone once it is used (R26). -/
def act (st : Stmt) (s : State) : Act :=
  match st with
  | .issue c => .call c [] s
  | .readRegister op => .call (registerCall op [] s) [] s
  | .writeRegister op v => .call (registerCall op [registerArg v s] s) [] { s with rx := [] }
  | .testQe =>
    if qeSet (firstByte s.rx) then .skip { s with rx := [] }
    else .call (registerCall opWRCR [withQe (firstByte s.rx)] s)
      [.readRegister opRDSR1, .writeRegister opWRSR1 .readWithQe] { s with rx := [] }
  | .raiseMode => .skip (if s.mode = .singleWire then { s with mode := .quadRegisterEnabled } else s)
  | .enterQpi => if s.qia then .skip s else .call (registerCall opRDCR [] s) afterCrRead s
  | .setQpi => .skip { s with mode := .qpi }
  | .setMapped => .skip { s with mode := .memoryMapped }
  | .testWip =>
    if wipSet (firstByte s.rx) then .call (registerCall opRDSR1 [] s) [.testWip] { s with rx := [] }
    else .skip { s with rx := [] }
  | .pageProgram a n off => pageProgramAct a n off [] s
  | .startChunks => .skip { s with cursor := s.addr.toNat, remaining := s.len, srcOff := 0 }
  | .chunkLoop =>
    if s.remaining = 0 then .skip (freeWorking s)
    else pageProgramAct (BitVec.ofNat 24 s.cursor) (chunkLength s.cursor s.remaining) s.srcOff [.advance, .chunkLoop]
      { s with chunkLen := chunkLength s.cursor s.remaining }
  | .advance =>
    .skip { s with
      cursor := s.cursor + s.chunkLen
      srcOff := s.srcOff + s.chunkLen
      remaining := s.remaining - s.chunkLen }
  | .returnBytes => .skip { s with response := .done s.rx, rx := [] }
  | .storeDst => .skip { s with dst := writeDst s.dst s.rx, rx := [] }

/-- Where the local computation of some statements leads: to a transport call and the statements after it, to the end of
the operation, or to the fault. -/
inductive Pending where
  | call (c : Call) (after : List Stmt) (s : State)
  | ended (s : State)
  | fatal (s : State)

/-- Runs local computation up to the next transport call, which "is attached to the transport call that follows it, or to
the end of the operation when none follows" (R10). -/
def nextCall : List Stmt → State → Pending
  | [], s => .ended s
  | st :: k, s =>
    match act st s with
    | .skip s' => nextCall k s'
    | .call c before s' => .call c (before ++ k) s'
    | .fatal s' => .fatal s'

/-- After a transport call: where no further call follows, the operation ends in the same step (R10); where one follows,
the local computation before it is left to that call's step. -/
def settle (s : State) : State :=
  match nextCall s.rest s with
  | .call _ _ _ => s
  | .ended s' => finish s'
  | .fatal s' => raiseFatal .pageBoundary s'

/-- The operation is settled after a call that returned. -/
def settleResult (r : Result) : Result :=
  match r with
  | .next s => .next (settle s)
  | .fault f => .fault f
  | .refused f => .refused f

/-- The transport port takes a call: it decodes the word and runs the command (R97, R110 to R113). `run` is the
dispatcher of the commands. -/
def issueWith (run : Instr → State → Result) (c : Call) (s : State) : Result :=
  match decodeBus c.word with
  | .error _ => .refused .unknownCommand
  | .ok i => run i { s with tx := c.tx, count := c.count }

/-- One step of a Busy block: the next transport call, or the end of the operation when there is none (R10). -/
def blockStepWith (run : Instr → State → Result) (s : State) : Result :=
  match nextCall s.rest s with
  | .call c k s' => settleResult (issueWith run c { s' with rest := k })
  | .ended s' => .next (finish s')
  | .fatal s' => .next (raiseFatal .pageBoundary s')

/-- Acceptance, in the order of R236: Halted, Busy, MemoryMapped, then the operands. (Item 3, the code, is tested when
the request word is decoded.) -/
def acceptRefusal (o : Operands) (s : State) : Option Refusal :=
  match s.ctl with
  | .halted => some .halted
  | .busy => some .busy
  | .idle => if s.mode = .memoryMapped then some .memoryMapped else operandRefusal o s.src

/-- An accepted request: `ctl: Idle -> Busy`, the operands latched, the position at the start of the pseudocode (R23,
R25, R234). -/
def accept (code : BitVec 5) (o : Operands) (body : List Stmt) (s : State) : State :=
  { latch code o s with ctl := .busy, rest := body, response := .nothing }

/-- A host request: refused with the state as it was, or accepted, and its first transport call made in the same step
(R10; log entry 1). -/
def request (code : BitVec 5) (o : Operands) (body : List Stmt) (s : State) : Result :=
  match acceptRefusal o s with
  | some r => .refused r
  | none => blockStepWith runBus (accept code o body s)

end Sys2Proof.Machine
end

