-- ==== Sys2Proof/Machine/Chunker.lean ====
section
/-! DEFINITION. page_chunker: the write of a region (spec/44_page_chunker.md). -/
namespace Sys2Proof.Machine

/-- WRITE_REGION (R200). -/
def execWriteRegion (a : Addr) (n : Nat) (s : State) : Result :=
  request 0x0F (.srcRegion a n) [.startChunks, .chunkLoop] s

end Sys2Proof.Machine
end

