-- ==== Sys2Proof/Machine/ModeFsm.lean ====
section
/-! DEFINITION. mode_fsm: the three mode-entry operations (spec/41_mode_fsm.md). -/
namespace Sys2Proof.Machine

/-- ENABLE_QUAD (R131). -/
def execEnableQuad (s : State) : Result := request 0x03 .nothing enableQuadBody s

/-- ENTER_QPI (R132). -/
def execEnterQpi (s : State) : Result := request 0x04 .nothing [.enterQpi] s

/-- ENTER_MEMORY_MAP: ENTER_QPI, the arm, `mode <- MemoryMapped` (R133). -/
def execEnterMemoryMap (s : State) : Result :=
  request 0x05 .nothing [.enterQpi, .issue (busCall .qioread [] 0), .setMapped] s

end Sys2Proof.Machine
end

