-- ==== Sys2Proof/Machine/Reads.lean ====
section
/-! DEFINITION. read_identify: the identification read and the region read (spec/45_read_identify.md). -/
namespace Sys2Proof.Machine

/-- READ_IDENTIFY: the bytes go to the host verbatim (R215, R220). -/
def execReadIdentify (s : State) : Result :=
  request 0x10 .nothing [.issue (busCall .rdid [] 0), .returnBytes] s

/-- READ_REGION: one transaction whatever the length (R216, R218). -/
def execReadRegion (a : Addr) (n : Nat) (s : State) : Result :=
  request 0x11 (.dstRegion a n) [.issue (busCall (.qread a) [] n), .storeDst] s

end Sys2Proof.Machine
end

