-- ==== Sys2Proof/Machine/RegisterAccess.lean ====
section
/-! DEFINITION. register_access: the four register operations (spec/42_register_access.md). -/
namespace Sys2Proof.Machine

/-- READ_SR1 (R152). -/
def execReadSr1 (s : State) : Result := request 0x06 .nothing [.readRegister opRDSR1, .returnBytes] s

/-- WRITE_SR1 (R153). -/
def execWriteSr1 (v : Byte) (s : State) : Result := request 0x07 (.value v) [.writeRegister opWRSR1 .latch] s

/-- READ_CR (R154). -/
def execReadCr (s : State) : Result := request 0x08 .nothing [.readRegister opRDCR, .returnBytes] s

/-- WRITE_CR (R155). -/
def execWriteCr (v : Byte) (s : State) : Result := request 0x09 (.value v) [.writeRegister opWRCR .latch] s

end Sys2Proof.Machine
end

