-- ==== Sys2Proof/Machine/Sequencer.lean ====
section
/-! DEFINITION. program_erase_sequencer: the reset sequence, the erases and the page program
(spec/43_program_erase_sequencer.md). -/
namespace Sys2Proof.Machine

/-- INIT: RESET, then ENABLE_QUAD (R179). -/
def execInit (s : State) : Result := request 0x01 .nothing (resetBody ++ enableQuadBody) s

/-- RESET, the device reset sequence; no state of the block changes (R178). -/
def execReset (s : State) : Result := request 0x02 .nothing resetBody s

/-- SECTOR_ERASE (R173). -/
def execSectorErase (a : Addr) (s : State) : Result := request 0x0A (.addr a) (eraseBody (.se a)) s

/-- BLOCK_ERASE_32K (R174). -/
def execBlockErase32k (a : Addr) (s : State) : Result := request 0x0B (.addr a) (eraseBody (.be32 a)) s

/-- BLOCK_ERASE_64K (R175). -/
def execBlockErase64k (a : Addr) (s : State) : Result := request 0x0C (.addr a) (eraseBody (.be64 a)) s

/-- CHIP_ERASE (R176). -/
def execChipErase (s : State) : Result := request 0x0D .nothing (eraseBody .ce) s

/-- PAGE_PROGRAM of `Src[0 .. n]` (R177). -/
def execPageProgram (a : Addr) (n : Nat) (s : State) : Result := request 0x0E (.srcPage a n) [.pageProgram a n 0] s

end Sys2Proof.Machine
end

