-- ==== Sys2Proof/Machine/Dispatch.lean ====
section
/-! DEFINITION. One arm per instruction: the 17 bus commands, then the 17 host operations, in the table's order. -/
namespace Sys2Proof.Machine

def exec (i : Instr) (s : State) : Host.Outcome State Fault Refusal :=
  match i with
  | .rdid => Sys2Proof.Machine.execRdid s
  | .rsten w => Sys2Proof.Machine.execRsten w s
  | .rst w => Sys2Proof.Machine.execRst w s
  | .wren => Sys2Proof.Machine.execWren s
  | .ce => Sys2Proof.Machine.execCe s
  | .se a => Sys2Proof.Machine.execSe a s
  | .be32 a => Sys2Proof.Machine.execBe32 a s
  | .be64 a => Sys2Proof.Machine.execBe64 a s
  | .qpp a => Sys2Proof.Machine.execQpp a s
  | .qread a => Sys2Proof.Machine.execQread a s
  | .qioread => Sys2Proof.Machine.execQioread s
  | .enqpi => Sys2Proof.Machine.execEnqpi s
  | .srp => Sys2Proof.Machine.execSrp s
  | .rdsr1 q => Sys2Proof.Machine.execRdsr1 q s
  | .wrsr1 q => Sys2Proof.Machine.execWrsr1 q s
  | .rdcr q => Sys2Proof.Machine.execRdcr q s
  | .wrcr q => Sys2Proof.Machine.execWrcr q s
  | .init => Sys2Proof.Machine.execInit s
  | .reset => Sys2Proof.Machine.execReset s
  | .enableQuad => Sys2Proof.Machine.execEnableQuad s
  | .enterQpi => Sys2Proof.Machine.execEnterQpi s
  | .enterMemoryMap => Sys2Proof.Machine.execEnterMemoryMap s
  | .readSr1 => Sys2Proof.Machine.execReadSr1 s
  | .writeSr1 v => Sys2Proof.Machine.execWriteSr1 v s
  | .readCr => Sys2Proof.Machine.execReadCr s
  | .writeCr v => Sys2Proof.Machine.execWriteCr v s
  | .sectorErase a => Sys2Proof.Machine.execSectorErase a s
  | .blockErase32k a => Sys2Proof.Machine.execBlockErase32k a s
  | .blockErase64k a => Sys2Proof.Machine.execBlockErase64k a s
  | .chipErase => Sys2Proof.Machine.execChipErase s
  | .pageProgram a n => Sys2Proof.Machine.execPageProgram a n s
  | .writeRegion a n => Sys2Proof.Machine.execWriteRegion a n s
  | .readIdentify => Sys2Proof.Machine.execReadIdentify s
  | .readRegion a n => Sys2Proof.Machine.execReadRegion a n s

end Sys2Proof.Machine
end

