-- ==== Sys2Proof/Machine/Window.lean ====
section
/-! DEFINITION. The host's loads through the memory-mapped window (spec/45_read_identify.md R217): a step of the
environment, no operation of the block, and no event of the trace. -/
namespace Sys2Proof.Machine

/-- MMAP_LOAD of `k` bytes at a host address: "a host load at `MMAP_BASE + o` reads flash address `o`" (R55), the bytes
composed little-endian (R57), the contents those of the flash array (R70). The window has offsets `0 .. FLASH_SIZE-1`
(R55); a load is meaningful only while the window is armed (R274). -/
def mmapLoad (address k : Nat) (s : State) : Result :=
  if s.window.isNone then .refused .windowNotArmed
  else if k = 0 then .refused .emptyLoad
  else if address < s.params.mmapBase ∨ s.params.mmapBase + flashBytes s.params < address + k then .fault .outsideWindow
  else
    .next { s with
      loaded := some (littleEndian (Memory.readBytes s.params s.device.flash (address - s.params.mmapBase) k)) }

end Sys2Proof.Machine
end

