-- ==== Sys2Proof/Machine/Fetch.lean ====
section
/-! DEFINITION. Fetching: the host's next move (spec/00_scope.md R12, spec/60_exceptions.md R249) and the places an
instruction is fetched from (log entries 12, 13). -/
namespace Sys2Proof.Machine

/-- The refusal of a word that has the code of an operation and breaks the model's own layout (log entries 11, 29): after
item 4 of R234, with which it does not compete (R236). -/
def layoutRefusal (m : Mode) : Refusal := if m = .memoryMapped then .memoryMapped else .malformedRequest

/-- The refusal of a request whose word is no operation, in the mode `m`: an unassigned code first (R91, R234 item 3). -/
def decodeRefusal (m : Mode) : DecodeError → Refusal
  | .unassignedCode => .unassignedCode
  | .reservedWidth => layoutRefusal m
  | .addressWithoutWidth => layoutRefusal m
  | .unknownOpcode => layoutRefusal m
  | .fieldMismatch => layoutRefusal m
  | .reservedBits => layoutRefusal m
  | .strayOperand => layoutRefusal m
  | .lengthRange => layoutRefusal m

/-- The host requests an operation: its buffer is `Src` from here on (R56). The order is that of R236: Halted, Busy, the code,
and then, in the operation's own meaning, MemoryMapped and the operands. -/
def hostRequest (run : Instr → State → Result) (r : Request) (s : State) : Result :=
  match s.ctl with
  | .halted => .refused .halted
  | .busy => .refused .busy
  | .idle =>
    match decodeHost r.word with
    | .error e => .refused (decodeRefusal s.mode e)
    | .ok i => run i { s with src := r.src }

/-- The next move of the host, taken off its agenda; with none left the machine waits (R34: "the block waits in `Idle`
for the host's first operation"). -/
def hostMove (run : Instr → State → Result) (s : State) : Result :=
  match s.agenda with
  | [] => .next s
  | .request r :: ms => hostRequest run r { s with agenda := ms }
  | .load address k :: ms => mmapLoad address k { s with agenda := ms }

/-- The host's next request is `w`, over the source buffer as it stands. -/
def placeRequest (w : HostWord) (s : State) : State :=
  { s with
    ctl := .idle
    rest := []
    resetPending := false
    agenda := .request { word := w, src := s.src } :: s.agenda }

/-- The block is Busy and the next transport call has the word `w`, a data phase of one zero byte where it writes and a
count of one where it reads a length of its own. -/
def placeBusWord (w : BusWord) (s : State) : State :=
  { s with
    ctl := .busy
    rest := [.issue { word := w, tx := [0], count := 1 }]
    resetPending := false }

/-- Who moves next (R12). Hardware reset comes first (R260); a Busy block makes its next transport call, whose word is decoded
and run (R10, R97); otherwise the host makes its next move, a request that is decoded and run or a load through the window,
and with no move left the machine waits (R34). `run` is the dispatcher of the instructions. -/
def stepWith (run : Instr → State → Result) (s : State) : Result :=
  if s.resetPending then .next (hardwareReset s)
  else
    match s.ctl with
    | .busy => blockStepWith run s
    | .idle => hostMove run s
    | .halted => hostMove run s

/-- Places a table row's bits where the next step fetches its instruction (log entry 13): a HOST5 row, one byte, is the host's
next request, a BUS43 row the next word a Busy block hands to the transport port. -/
def placeTableWord (nbits w : Nat) (s : State) : State :=
  if nbits ≤ 8 then placeRequest (BitVec.ofNat 72 w) s else placeBusWord (BitVec.ofNat 43 w) s

end Sys2Proof.Machine
end

