-- ==== Sys2Proof/Machine/Step.lean ====
section
/-! DEFINITION. The one step function: fetching and running what moves next, through the dispatcher exec. -/
namespace Sys2Proof.Machine

/-- One step of the machine (R10, R12). -/
def step (s : State) : Host.Outcome State Fault Refusal := stepWith exec s

/-- The state whose next step fetches and runs the instruction of a table row's bits (log entry 13). -/
def State.withFetchWord (s : State) (nbits w : Nat) : State := placeTableWord nbits w s

end Sys2Proof.Machine
end

