-- ==== Sys2Proof/Safety.lean ====
section
/-! DEFINITION. What counts as a safe run, and the premises the spec names for claims about operations, in the terms the
statements use (spec/60_exceptions.md R248, spec/70_reset_and_hazards.md R262, R268, R270, R276, R282). -/
namespace Sys2Proof.Safety
open Sys2Proof.Machine

/-- "A model's safety predicate should include `ctl != Halted`" (R248). -/
def notHalted (s : State) : Bool := decide (s.ctl ≠ .halted)

/-- A move of the host is a request for an operation, not a load. -/
def isRequest : HostMove → Bool
  | .request _ => true
  | .load _ _ => false

/-- How many of the host's requests have not yet reached their outcome, but for one in progress. -/
def requestsLeft (s : State) : Nat := s.agenda.countP isRequest

/-- Whether a move of the host would be refused as a request, were it the next (R234). A refused request changes no state, so the
machine stays where it is and meets the host's later requests in the same state. -/
def refusesAt (s : State) (m : HostMove) : Bool :=
  match m, step { s with agenda := [m] } with
  | .request _, .refused _ => true
  | _, _ => false

/-- "A run ... is over when the last request has reached its outcome and `ctl` is `Idle` or `Halted`" (R282): of the requests that
are left, if any, each is refused, as every one is of a block that is Halted (R238) or MemoryMapped (R136). Loads that are left do
not count: "what follows is the environment serving loads". -/
def runOver (s : State) : Bool :=
  decide (s.ctl ≠ .busy) && s.agenda.all (fun m => !isRequest m || refusesAt s m)

/-- "It is good when `ctl = Idle` and no request was refused" (R282): every request was accepted and has ended. A refused request
is never taken off the agenda, so one that was refused is still there. -/
def goodEnd (s : State) : Bool := decide (s.ctl = .idle) && decide (requestsLeft s = 0)

/-- The operation `i`, the host's next move at the Idle state `s`, is requested and has ended at `t`: `ctl` is Idle again, and of
the host's moves that one is gone (R13). -/
def Completes (i : Instr) (s t : State) : Prop :=
  s.ctl = .idle ∧ s.resetPending = false ∧ t.ctl = .idle ∧
  ∃ r k, s.agenda = .request r :: t.agenda ∧ decodeHost r.word = .ok i ∧ Host.Core.run Sys2Proof.core k s = .next t

/-- The operations complete one after the other, and nothing comes between them. -/
def CompletesAll : List Instr → State → State → Prop
  | [], s, t => s = t
  | i :: is, s, t => ∃ u, Completes i s u ∧ CompletesAll is u t

/-- The operations that may stand between RESET and ENABLE_QUAD (R262). -/
def bootReads : List Instr := [.readIdentify, .readSr1, .readCr]

/-- "After hardware reset the first operation must be `INIT`, or `RESET` followed by `ENABLE_QUAD` with only `READ_IDENTIFY`,
`READ_SR1` or `READ_CR` between them" (R262, D6). -/
def IsBoot (ops : List Instr) : Prop :=
  ops = [.init] ∨ ∃ reads, (∀ i ∈ reads, i ∈ bootReads) ∧ ops = .reset :: (reads ++ [.enableQuad])

/-- The launch premise "`INIT` has completed" (R262, R276): the machine came to `s` from a hardware reset by a boot and then any
steps. No step applies a hardware reset, so none has come since. It is a premise about the host, never a check of the machine, and
no state of the block holds it: "it keeps no "initialised" bit" (R262). -/
def Launched (s : State) : Prop :=
  ∃ u b ops k, IsBoot ops ∧ CompletesAll ops (hardwareReset u) b ∧ Host.Core.run Sys2Proof.core k b = .next s

/-- The premise "erase, program and discrete reads happen before `ENTER_QPI`", which is also the premise "no `RESET` after
`ENTER_QPI`" (R268, R270, U2, U10). -/
def beforeQpi (s : State) : Bool := !s.qia

/-! ### The positions of a Busy block (spec/10_state.md R23): where an operation can stand between two of its transport
calls. Local statements that belong to the following call (R10) stand at the head. -/

/-- Inside WAIT_UNTIL_IDLE, with `k` to follow (R172). -/
def waitAt (k : List Stmt) : List (List Stmt) := [waitUntilIdle ++ k, .testWip :: k]

/-- Inside the reset sequence, after its first command (R178). -/
def resetAt (k : List Stmt) : List (List Stmt) :=
  [[.issue (busCall (.rst true) [] 0), .issue (busCall (.rsten false) [] 0), .issue (busCall (.rst false) [] 0)] ++
      (waitUntilIdle ++ k),
    [.issue (busCall (.rsten false) [] 0), .issue (busCall (.rst false) [] 0)] ++ (waitUntilIdle ++ k),
    .issue (busCall (.rst false) [] 0) :: (waitUntilIdle ++ k)] ++ waitAt k

/-- Inside ENABLE_QUAD, after its read of CR (R131). -/
def quadAt (k : List Stmt) : List (List Stmt) :=
  [.testQe :: .raiseMode :: k,
    .readRegister opRDSR1 :: .writeRegister opWRSR1 .readWithQe :: .raiseMode :: k,
    .writeRegister opWRSR1 .readWithQe :: .raiseMode :: k,
    .raiseMode :: k]

/-- ENTER_QPI after ENABLE_QUAD (R132). -/
def qpiTail (k : List Stmt) : List Stmt :=
  .issue (busCall .enqpi [] 0) :: .issue (busCall .wren [] 0) :: .setQpi :: .writeRegister opSRP .readParams :: k

/-- Inside ENTER_QPI, after its read of CR (R132). -/
def qpiAt (k : List Stmt) : List (List Stmt) :=
  quadAt (qpiTail k) ++
    [.issue (busCall .wren [] 0) :: .setQpi :: .writeRegister opSRP .readParams :: k,
      .setQpi :: .writeRegister opSRP .readParams :: k]

/-- The end of ENTER_MEMORY_MAP (R133). -/
def mapTail : List Stmt := [.issue (busCall .qioread [] 0), .setMapped]

/-- Inside an erase, after its write-enable (R176, R183). -/
def eraseAt (cmd : Instr) : List (List Stmt) :=
  (.issue (busCall cmd [] 0) :: waitUntilIdle) :: waitAt []

/-- Inside a page program of the bytes `tx`, after its write-enable (R177). -/
def programAt (a : Addr) (tx : List Byte) (k : List Stmt) : List (List Stmt) :=
  (.issue (busCall (.qpp a) tx 0) :: (waitUntilIdle ++ k)) :: waitAt k

/-- The bytes `tx` are `Src[0 .. n]`: `n` of them, those the buffer holds as it holds them (R92; log entry 15). -/
def isPayload (src : List Byte) (n : Nat) (tx : List Byte) : Prop := tx.length = n ∧ tx.take src.length = src.take n

/-- While WRITE_REGION is programming a chunk: R37 (e), the chunk law (R201) and the preconditions (R205). -/
def chunkInv (s : State) : Prop :=
  s.addr.toNat + s.len ≤ Config.addrSpace ∧ s.len ≤ s.src.length ∧ 0 < s.remaining ∧
  s.cursor + s.remaining = s.addr.toNat + s.len ∧ s.srcOff + s.remaining = s.len ∧
  s.chunkLen = chunkLength s.cursor s.remaining

/-- The position of a Busy block is one of its operation's (R23). The register operations and the two reads make one
transport call and are never Busy between steps. -/
def position (s : State) : Prop :=
  match s.op.toNat with
  | 0x01 => s.rest ∈ resetAt enableQuadBody ∨ s.rest ∈ quadAt []
  | 0x02 => s.rest ∈ resetAt []
  | 0x03 => s.rest ∈ quadAt []
  | 0x04 => s.rest ∈ qpiAt []
  | 0x05 => s.rest ∈ qpiAt mapTail ∨ s.rest = mapTail
  | 0x0A => s.rest ∈ eraseAt (.se s.addr)
  | 0x0B => s.rest ∈ eraseAt (.be32 s.addr)
  | 0x0C => s.rest ∈ eraseAt (.be64 s.addr)
  | 0x0D => s.rest ∈ eraseAt .ce
  | 0x0E =>
    1 ≤ s.len ∧ crossesPage s.addr s.len = false ∧ ∃ tx, isPayload s.src s.len tx ∧ s.rest ∈ programAt s.addr tx []
  | 0x0F =>
    chunkInv s ∧ s.rest ∈ programAt (BitVec.ofNat 24 s.cursor) (srcSlice s.src s.srcOff s.chunkLen) [.advance, .chunkLoop]
  | _ => False

/-- The ranges of R24 and R25. -/
def rangesOk (s : State) : Prop :=
  s.cursor ≤ Config.addrSpace ∧ s.remaining ≤ Config.addrSpace ∧ s.srcOff ≤ Config.addrSpace ∧
  1 ≤ s.chunkLen ∧ s.chunkLen ≤ Config.pageSize ∧ s.len ≤ Config.addrSpace

/-- The invariant of the machine. -/
structure Inv (s : State) : Prop where
  /-- The flash array is in its canonical form. -/
  flash : Memory.wf s.params s.device.flash
  /-- The window is armed if and only if `mode = MemoryMapped` (R37 (c)), and then with the template of R93. -/
  window : s.window = if s.mode = .memoryMapped then some mmapTemplate else none
  /-- A Busy block stands at a position of its operation, and has not entered the window (R23, R136). -/
  busy : s.ctl = .busy → s.mode ≠ .memoryMapped ∧ position s
  /-- A block that is not Busy has no position and keeps no byte it read (R26). -/
  still : s.ctl ≠ .busy → s.rest = [] ∧ s.rx = []
  /-- No argument of a transport call outlives it (R27, R116). -/
  port : s.tx = [] ∧ s.count = 0
  /-- The ranges of the working registers and of `len` (R24, R25). -/
  ranges : rangesOk s
  /-- `ctl = Halted` implies that the last accepted operation was a PAGE_PROGRAM whose operands failed the page check
  (R37 (d)); the operands stay in the latches (R231). -/
  halted : s.ctl = .halted → s.op = 0x0E ∧ crossesPage s.addr s.len = true

end Sys2Proof.Safety
end

