-- ==== Sys2Proof/Certificates/Slice0/Obligations.lean ====
section
/-! DEFINITION. The statements for the provers, from the spec's numbered rules. First their vocabulary: the trace notation of
spec/00_scope.md R11 with every descriptor written out from the table of spec/30_encoding.md R86, what an instruction leaves
alone, and runs, one transport call a step (R10). -/
namespace Sys2Proof.Claims
open Sys2Proof.Machine Sys2Proof.Safety

/-! ### The trace notation (R11) -/

/-- The width `m` of R88 and R157: quad when `qia`, else single. -/
def width (q : Bool) : Width := if q then .quad else .single

/-- `cmd(op, w, -, -)`. -/
def bare (op : Byte) (w : Width) : Event := .cmd ⟨op, w, .none, .none, none, 0⟩

/-- `cmd(op, S, S, -, a=a)`. -/
def aimed (op : Byte) (a : Addr) : Event := .cmd ⟨op, .single, .single, .none, some a, 0⟩

/-- The descriptor of a register access (R88): `D{op, iw=w, aw=none, dw=w, dummy=0}`. -/
def register (op : Byte) (w : Width) : Descriptor := ⟨op, w, .none, w, none, 0⟩

/-- `rd(op, w, -, w, n=1) -> [b]`. -/
def registerRead (op : Byte) (w : Width) (b : Byte) : Event := .rd (register op w) 1 [b]

/-- `wr(op, w, -, w, [v])`. -/
def registerWrite (op : Byte) (w : Width) (v : Byte) : Event := .wr (register op w) [v]

/-- `wr(32, S, S, Q, a=a, [bytes])`. -/
def program (a : Addr) (bytes : List Byte) : Event := .wr ⟨0x32, .single, .single, .quad, some a, 0⟩ bytes

/-- The descriptor of `rd(6B, S, S, Q, a=a, dc=8, ...)`. -/
def regionRead (a : Addr) : Descriptor := ⟨0x6B, .single, .single, .quad, some a, 8⟩

/-- The descriptor of `rd(9F, S, -, S, ...)`. -/
def identifyRead : Descriptor := ⟨0x9F, .single, .none, .single, none, 0⟩

/-- The memory-map template of R93. -/
def template : Descriptor := ⟨0xEB, .quad, .quad, .quad, some 0, 8⟩

/-- Polls of SR1, one event for each byte returned (R172). -/
def polls (q : Bool) (bytes : List Byte) : List Event := bytes.map (registerRead 0x05 (width q))

/-- The write-enable event, `cmd(06, S, -, -)` (R171). -/
def writeEnable : Event := bare 0x06 .single

/-- The replies that end a busy-wait: `busy` with WIP set, then `last` with WIP clear (R172). -/
def Waits (busy : List Byte) (last : Byte) : Prop := (∀ b ∈ busy, b &&& 0x01 ≠ 0) ∧ last &&& 0x01 = 0

/-- The replies ENABLE_QUAD takes: CR, and SR1 where the Quad-Enable bit of CR was clear (R131). -/
def quadReplies (cr sr : Byte) : List Byte := if cr &&& 0x02 = 0 then [cr, sr] else [cr]

/-- The events of ENABLE_QUAD at width `w` (R131). -/
def quadEvents (w : Width) (cr sr : Byte) : List Event :=
  if cr &&& 0x02 = 0 then
    [registerRead 0x35 w cr, registerWrite 0x31 w (cr ||| 0x02), registerRead 0x05 w sr,
      registerWrite 0x01 w (sr ||| 0x02)]
  else [registerRead 0x35 w cr]

/-- The events of ENTER_QPI after ENABLE_QUAD (R132). -/
def qpiEvents (readParams : Byte) : List Event :=
  [bare 0x38 .single, writeEnable, registerWrite 0xC0 .quad readParams]

/-- `if mode = SingleWire then mode <- QuadRegisterEnabled` (R131). -/
def raised (m : Mode) : Mode := if m = .singleWire then .quadRegisterEnabled else m

/-! ### When an operation starts, and what it leaves alone -/

/-- The block can accept an operation (R234 items 1, 2 and 4). The window is then unarmed, by the invariant
(`Safety.Inv.window`, R37 (c)). -/
def Ready (s : State) : Prop := s.ctl = .idle ∧ s.mode ≠ .memoryMapped ∧ s.window = none

/-- What no instruction touches: the source buffer, the word of the last window load, the host's coming moves, the reset
event, the choice of the environment and the parameters. -/
structure Kept (s t : State) : Prop where
  src : t.src = s.src
  loaded : t.loaded = s.loaded
  agenda : t.agenda = s.agenda
  resetPending : t.resetPending = s.resetPending
  env : t.env = s.env
  params : t.params = s.params

/-- The working registers, which only WRITE_REGION touches (R24). -/
structure ChunkerKept (s t : State) : Prop where
  cursor : t.cursor = s.cursor
  remaining : t.remaining = s.remaining
  srcOff : t.srcOff = s.srcOff
  chunkLen : t.chunkLen = s.chunkLen

/-- What a bus command leaves alone: all of the block but the byte it may receive; and its arguments are used up (R116). -/
structure BusFrame (s t : State) : Prop where
  kept : Kept s t
  chunker : ChunkerKept s t
  mode : t.mode = s.mode
  ctl : t.ctl = s.ctl
  rest : t.rest = s.rest
  op : t.op = s.op
  addr : t.addr = s.addr
  len : t.len = s.len
  value : t.value = s.value
  dst : t.dst = s.dst
  response : t.response = s.response
  tx : t.tx = []
  count : t.count = 0

/-- The end of an operation: Idle, no position, no byte kept, no argument left, the response `r` (R13, R23, R26). The
operand latches are not in this frame: they are unspecified once the operation has ended (R25). -/
structure Ended (r : Response) (s t : State) : Prop where
  kept : Kept s t
  ctl : t.ctl = .idle
  rest : t.rest = []
  rx : t.rx = []
  tx : t.tx = []
  count : t.count = 0
  response : t.response = r

/-- The end of an operation that changes neither the mode, the window, the working registers nor `Dst`. -/
structure QuietEnd (r : Response) (s t : State) : Prop where
  ended : Ended r s t
  chunker : ChunkerKept s t
  mode : t.mode = s.mode
  window : t.window = s.window
  dst : t.dst = s.dst

/-- The byte of the flash array at an address. -/
def flashAt (s : State) (a : Nat) : Byte := Memory.read s.params s.device.flash a

/-- No byte of the flash array changes. It is said of the reference device; what any other device does with a command is
not the block's to say (R31, R117). -/
def SameFlash (s t : State) : Prop := s.env = .refFlash → ∀ a, flashAt t a = flashAt s a

/-- The bytes `bs` a read of `n` bytes returned: exactly `n` (R112), and under the oracle those the environment had lined
up, so that a statement about them holds for every choice of the environment (R117). -/
def Reply (n : Nat) (s t : State) (bs : List Byte) : Prop :=
  bs.length = n ∧
  (s.env = .oracle → n ≤ s.replies.length → bs = s.replies.take n ∧ t.replies = s.replies.drop n)

/-! ### Runs -/

/-- `k` steps of the machine lead from `s` to `t`. -/
def RunsTo (k : Nat) (s t : State) : Prop := Host.Core.run Sys2Proof.core k s = .next t

/-- The operation `i`, requested at `s`, makes exactly the transport calls `events`, one a step (R10), and has then reached
`t`. Its acceptance is attached to the call that follows it (R10; log entry 1). -/
def RunsThrough (i : Instr) (s : State) (events : List Event) (t : State) : Prop :=
  ∃ u, exec i s = .next u ∧ RunsTo (events.length - 1) u t ∧ t.trace = s.trace ++ events

/-- The premises of a whole run under the oracle, which is the normative environment (R117): ready, no hardware reset
applied, and the replies lined up. -/
structure Launch (s : State) (replies : List Byte) : Prop where
  ready : Ready s
  noReset : s.resetPending = false
  env : s.env = .oracle
  replies : s.replies = replies

/-! ### Properties of a trace -/

/-- The descriptor of an event. -/
def descriptorOf : Event → Descriptor
  | .cmd d => d
  | .wr d _ => d
  | .rd d _ _ => d
  | .arm d => d

/-- The descriptors, kinds and data lengths of R86, all of them: "17 opcodes, 23 distinct packed words apart from the address
bits" (R90). -/
def TableEvent : Event → Prop
  | .cmd d =>
    (∃ w, w ≠ .none ∧ (d = ⟨0x66, w, .none, .none, none, 0⟩ ∨ d = ⟨0x99, w, .none, .none, none, 0⟩)) ∨
    d = ⟨0x06, .single, .none, .none, none, 0⟩ ∨ d = ⟨0xC7, .single, .none, .none, none, 0⟩ ∨
    d = ⟨0x38, .single, .none, .none, none, 0⟩ ∨
    ∃ a, d = ⟨0x20, .single, .single, .none, some a, 0⟩ ∨ d = ⟨0x52, .single, .single, .none, some a, 0⟩ ∨
      d = ⟨0xD8, .single, .single, .none, some a, 0⟩
  | .wr d bytes =>
    (1 ≤ bytes.length ∧ bytes.length ≤ 8 ∧ ∃ a, d = ⟨0x32, .single, .single, .quad, some a, 0⟩) ∨
    (bytes.length = 1 ∧ (d = register 0xC0 .quad ∨ ∃ w, w ≠ .none ∧ (d = register 0x01 w ∨ d = register 0x31 w)))
  | .rd d n bytes =>
    bytes.length = n ∧
    ((n = 3 ∧ d = identifyRead) ∨ (n = 1 ∧ ∃ w, w ≠ .none ∧ (d = register 0x05 w ∨ d = register 0x35 w)) ∨
      (1 ≤ n ∧ ∃ a, d = regionRead a))
  | .arm d => d = template

/-- "Every event whose opcode is one of `0x20`, `0x52`, `0xD8`, `0xC7`, `0x32`" (R180). -/
def mutates (e : Event) : Bool :=
  decide ((descriptorOf e).opcode ∈ ([0x20, 0x52, 0xD8, 0xC7, 0x32] : List Byte))

/-- The byte of a poll `rd(05, m, -, m, n=1) -> [b]`, at either width. -/
def pollByte : Event → Option Byte
  | .rd d 1 [b] => if d = register 0x05 .single ∨ d = register 0x05 .quad then some b else none
  | _ => none

/-- How far a trace has come in the pattern of R180: nothing is owed, the last event was a write-enable, or an erase or
program has been sent and no poll has yet returned WIP clear. -/
inductive Phase where
  | calm
  | enabled
  | waiting
  deriving DecidableEq, Repr

/-- One event of the pattern of R180; `none` where the event breaks it. -/
def Phase.after (p : Phase) (e : Event) : Option Phase :=
  match p with
  | .calm => if mutates e then none else if e = writeEnable then some .enabled else some .calm
  | .enabled => if mutates e then some .waiting else if e = writeEnable then some .enabled else some .calm
  | .waiting =>
    match pollByte e with
    | none => none
    | some b => if b &&& 0x01 = 0 then some .calm else some .waiting

/-- A trace read through the pattern of R180. -/
def phaseOf : Phase → List Event → Option Phase
  | p, [] => some p
  | p, e :: es =>
    match p.after e with
    | none => none
    | some q => phaseOf q es

/-- R37 (b) and (f): `qia` has its ENQPI and a WREN after it, and every descriptor is legal (R81). -/
def TraceFacts (s : State) : Prop :=
  (s.qia = true → List.Sublist [bare 0x38 .single, writeEnable] s.trace) ∧
  ∀ e ∈ s.trace, (descriptorOf e).legal

/-- A page program that stays inside its page (R52); every other event is. -/
def PageSafe : Event → Prop
  | .wr d bytes => d.opcode = 0x32 → (d.address.getD 0).toNat % 8 + bytes.length ≤ 8
  | _ => True

/-- Whether an event changes the byte at address `b` of the reference device: an erase of the region that contains its
address (R53), or a program of the bytes from its address on (R58). -/
def touches (p : Config.Params) (e : Event) (b : Nat) : Prop :=
  match e with
  | .cmd d =>
    let a := (d.address.getD 0).toNat
    (d.opcode = 0x20 ∧ a - a % p.sectorSize ≤ b ∧ b < a - a % p.sectorSize + p.sectorSize) ∨
    (d.opcode = 0x52 ∧ a - a % 32768 ≤ b ∧ b < a - a % 32768 + 32768) ∨
    (d.opcode = 0xD8 ∧ a - a % 65536 ≤ b ∧ b < a - a % 65536 + 65536) ∨ d.opcode = 0xC7
  | .wr d bytes => d.opcode = 0x32 ∧ (d.address.getD 0).toNat ≤ b ∧ b < (d.address.getD 0).toNat + bytes.length
  | _ => False

/-- Two states that agree on all but the working registers and the operand latches (R24, R25). -/
def AgreeOutsideRegisters (s t : State) : Prop :=
  t = { s with
    cursor := t.cursor, remaining := t.remaining, srcOff := t.srcOff, chunkLen := t.chunkLen,
    op := t.op, addr := t.addr, len := t.len, value := t.value }

/-- The first condition of R234 that fails, in the order of R236; `range` is the operation's `addr` and `len` where it has
them. -/
def firstFailure (s : State) (range : Option (Addr × Nat)) : Option Refusal :=
  if s.ctl = .halted then some .halted
  else if s.ctl = .busy then some .busy
  else if s.mode = .memoryMapped then some .memoryMapped
  else
    match range with
    | none => none
    | some (a, n) => if n = 0 then some .zeroLength else if 2 ^ 24 < a.toNat + n then some .pastTop else none

/-- The block refuses the operation `i` as `firstFailure` says, then for a `Src` that is not long enough (`enough`, which is True
where R205 (c) asks nothing), and otherwise takes it. -/
def AcceptedUnless (i : Instr) (range : Option (Addr × Nat)) (enough : Prop) (s : State) : Prop :=
  match firstFailure s range with
  | some r => exec i s = .refused r
  | none => (enough → ∃ t, exec i s = .next t) ∧ (¬ enough → exec i s = .refused .shortSource)

end Sys2Proof.Claims

open Sys2Proof Sys2Proof.Machine Sys2Proof.Safety Sys2Proof.Claims

/-! ### Reset and the step -/

/-- R34: the values after hardware reset, all that the rule gives; it calls the rest unspecified. -/
def Obligations.ResetStateIsTheSpecs : Prop :=
  State.reset.mode = .singleWire ∧ State.reset.qia = false ∧ State.reset.ctl = .idle ∧ State.reset.window = none ∧
  State.reset.trace = []

/-- The invariant of the machine holds at reset. The values the model chose for unspecified registers (log entries 8, 10)
enter it only through their ranges (R24, R25). -/
def Obligations.InvariantHoldsAtReset : Prop := Inv State.reset

/-- R260 (1), R34: hardware reset comes first, from any state; it issues nothing and does nothing to the device. What the host,
its buffers and the environment keep is the model's reading (log entry 14). -/
def Obligations.HardwareResetStep : Prop :=
  ∀ s : State, s.resetPending = true →
    ∃ t, step s = .next t ∧ t.mode = .singleWire ∧ t.qia = false ∧ t.ctl = .idle ∧ t.window = none ∧ t.trace = [] ∧
      t.resetPending = false ∧ t.device = s.device ∧ t.src = s.src ∧ t.dst = s.dst ∧ t.agenda = s.agenda ∧
      t.env = s.env ∧ t.params = s.params

/-- A step of a block that is Idle runs the instruction the host's next request word decodes to; a word that decodes to none is
refused, an unassigned code under its own name (R91). The model's choice, not the spec's: that a request is the next move of the
host's agenda (log entry 12), the layout of the word and with it every refusal but that of an unassigned code (log entries 11,
29). -/
def Obligations.RequestStepRunsInstruction : Prop :=
  ∀ (s : State) (r : Request) (ms : List HostMove), s.resetPending = false → s.ctl = .idle →
    s.agenda = .request r :: ms →
    (∀ i, decodeHost r.word = .ok i → step s = exec i { s with agenda := ms, src := r.src }) ∧
    (∀ e, decodeHost r.word = .error e → step s = .refused (decodeRefusal s.mode e))

/-- A step of a Busy block runs the bus command its next transport call's word decodes to, and then settles (R10, R97). -/
def Obligations.BusStepRunsInstruction : Prop :=
  ∀ (s s' : State) (c : Call) (k : List Stmt) (i : Instr), s.resetPending = false → s.ctl = .busy →
    nextCall s.rest s = .call c k s' → decodeBus c.word = .ok i →
    step s = settleResult (exec i { s' with rest := k, tx := c.tx, count := c.count })

/-! ### Encodings -/

/-- The words of vector V70 and the operation codes of R87 decode to the instructions they stand for. -/
def Obligations.PrintedWordsDecode : Prop :=
  decodeBus 0x4FA20000000 = .ok .rdid ∧ decodeBus 0x33200000000 = .ok (.rsten false) ∧
  decodeBus 0x33600000000 = .ok (.rsten true) ∧ decodeBus 0x4CE00000000 = .ok (.rst true) ∧
  decodeBus 0x03200000000 = .ok .wren ∧ decodeBus 0x63A00000000 = .ok .ce ∧
  decodeBus 0x10280001234 = .ok (.se 0x001234) ∧ decodeBus 0x192E0000007 = .ok (.qpp 0x000007) ∧
  decodeBus 0x35AE8FFFFFF = .ok (.qread 0xFFFFFF) ∧ decodeBus 0x75FE8000000 = .ok .qioread ∧
  decodeBus 0x60660000000 = .ok .srp ∧ decodeBus 0x02E60000000 = .ok (.rdsr1 true) ∧
  decodeBus 0x18A20000000 = .ok (.wrcr false) ∧
  decodeHost 0x01 = .ok .init ∧ decodeHost 0x05 = .ok .enterMemoryMap ∧ decodeHost 0x10 = .ok .readIdentify ∧
  decodeHost 0x5A0000000000000007 = .ok (.writeSr1 0x5A) ∧ decodeHost 0x1000000411 = .ok (.readRegion 0x000004 16)

/-- R83, R82: a word with a width field `10`, or with no address width and a non-zero address, is no instruction. -/
def Obligations.IllegalBusWordsRejected : Prop :=
  ∀ w : BusWord,
    (w.extractLsb' 33 2 = 0b10 ∨ w.extractLsb' 31 2 = 0b10 ∨ w.extractLsb' 29 2 = 0b10 →
      decodeBus w = .error .reservedWidth) ∧
    (w.extractLsb' 33 2 ≠ 0b10 → w.extractLsb' 31 2 = 0b00 → w.extractLsb' 29 2 ≠ 0b10 → w.extractLsb' 0 24 ≠ 0 →
      decodeBus w = .error .addressWithoutWidth)

/-- R91: the operation codes `0x00` and `0x12` to `0x1F` select no operation, whatever the other bits of the request. -/
def Obligations.UnassignedCodesSelectNothing : Prop :=
  ∀ w : HostWord, (w.extractLsb' 0 5 = 0 ∨ 0x12 ≤ (w.extractLsb' 0 5).toNat) → decodeHost w = .error .unassignedCode

/-- Decoding and encoding agree in both directions: the decoder reads exactly the words the encoder writes, each back to the
instruction it was written from, for every well-formed instruction (R83, R86, R97; the request layout is log entry 11's). -/
def Obligations.DecodeEncodeAgree : Prop :=
  ∀ (c : CodeWord) (i : Instr), decode c = .ok i ↔ i.wellFormed = true ∧ encode i = c

/-! ### The bus commands -/

namespace Sys2Proof.Claims
open Sys2Proof.Machine

/-- The command completes with the event `e` and changes no byte of the flash array. -/
def Sends (i : Instr) (s : State) (e : Event) : Prop :=
  ∃ t, exec i s = .next t ∧ t.trace = s.trace ++ [e] ∧ BusFrame s t ∧ t.rx = s.rx ∧ t.window = s.window ∧ SameFlash s t

/-- The command completes with the event `e`; on the reference device the bytes from `lo` on, `size` of them, read as
`ERASED_BYTE` afterwards and no other byte changes (R53). -/
def Erases (i : Instr) (s : State) (e : Event) (lo size : Nat) : Prop :=
  ∃ t, exec i s = .next t ∧ t.trace = s.trace ++ [e] ∧ BusFrame s t ∧ t.rx = s.rx ∧ t.window = s.window ∧
    (s.env = .refFlash →
      ∀ b, flashAt t b = if lo ≤ b ∧ b < lo + size then s.params.erasedByte else flashAt s b)

/-- The read completes with its event, and delivers the `n` bytes the environment returned (R112). -/
def Receives (i : Instr) (s : State) (d : Descriptor) (n : Nat) : Prop :=
  ∃ t bs, exec i s = .next t ∧ Reply n s t bs ∧ t.trace = s.trace ++ [.rd d n bs] ∧ t.rx = bs ∧ BusFrame s t ∧
    t.window = s.window ∧ SameFlash s t

end Sys2Proof.Claims

/-- R86, R110: the opcode-only commands that start nothing in the array: RSTEN and RST at either width, WREN, ENQPI. -/
def Obligations.PlainCommandsComplete : Prop :=
  ∀ (s : State) (w : Bool), s.window = none →
    Sends (.rsten w) s (bare 0x66 (width w)) ∧ Sends (.rst w) s (bare 0x99 (width w)) ∧
    Sends .wren s (bare 0x06 .single) ∧ Sends .enqpi s (bare 0x38 .single)

/-- R86, R110, R53: the erase commands, the address as given; the region they erase on the reference device. -/
def Obligations.EraseCommandsComplete : Prop :=
  ∀ (s : State) (a : Addr), s.window = none →
    Erases (.se a) s (aimed 0x20 a) (a.toNat - a.toNat % s.params.sectorSize) s.params.sectorSize ∧
    Erases (.be32 a) s (aimed 0x52 a) (a.toNat - a.toNat % 32768) 32768 ∧
    Erases (.be64 a) s (aimed 0xD8 a) (a.toNat - a.toNat % 65536) 65536 ∧
    (∃ t, exec .ce s = .next t ∧ t.trace = s.trace ++ [bare 0xC7 .single] ∧ BusFrame s t ∧ t.rx = s.rx ∧
      t.window = s.window ∧ (s.env = .refFlash → ∀ b, flashAt t b = s.params.erasedByte))

/-- R86, R111, R58: the page program sends its payload; on the reference device byte `i` goes to address `a + i` where that byte
is in the array and erased (R72), and no byte outside `a .. a + n - 1` changes. -/
def Obligations.PageProgramCommandCompletes : Prop :=
  ∀ (s : State) (a : Addr), s.window = none → 1 ≤ s.tx.length → s.tx.length ≤ 8 →
    ∃ t, exec (.qpp a) s = .next t ∧ t.trace = s.trace ++ [program a s.tx] ∧ BusFrame s t ∧ t.rx = s.rx ∧
      t.window = s.window ∧
      (s.env = .refFlash → Memory.wf s.params s.device.flash →
        (∀ b, b < a.toNat ∨ a.toNat + s.tx.length ≤ b → flashAt t b = flashAt s b) ∧
        ∀ (i : Nat) (h : i < s.tx.length), a.toNat + i < flashBytes s.params →
          flashAt s (a.toNat + i) = s.params.erasedByte → flashAt t (a.toNat + i) = s.tx[i])

/-- R86, R112: the four reads, each of the number of bytes its row gives. -/
def Obligations.ReadCommandsComplete : Prop :=
  ∀ (s : State) (q : Bool) (a : Addr), s.window = none →
    Receives .rdid s identifyRead 3 ∧ Receives (.rdsr1 q) s (register 0x05 (width q)) 1 ∧
    Receives (.rdcr q) s (register 0x35 (width q)) 1 ∧
    (1 ≤ s.count → Receives (.qread a) s (regionRead a) s.count)

/-- R86, R111: the three register writes, one byte each; SRP is always quad (R88). -/
def Obligations.RegisterWriteCommandsComplete : Prop :=
  ∀ (s : State) (q : Bool) (v : Byte), s.window = none → s.tx = [v] →
    Sends (.wrsr1 q) s (registerWrite 0x01 (width q) v) ∧ Sends (.wrcr q) s (registerWrite 0x31 (width q) v) ∧
    Sends .srp s (registerWrite 0xC0 .quad v)

/-- R113, R93: the arm puts the template in force. -/
def Obligations.ArmCommandCompletes : Prop :=
  ∀ s : State, s.window = none →
    ∃ t, exec .qioread s = .next t ∧ t.trace = s.trace ++ [.arm template] ∧ t.window = some template ∧ BusFrame s t ∧
      t.rx = s.rx ∧ SameFlash s t

/-- The port's refusals: every command while the window is armed (R136, U1), and a data phase of a length R86 does not give
(log entries 16, 17: the model's own; the block produces neither). -/
def Obligations.PortRefusals : Prop :=
  (∀ (s : State) (i : Instr), s.window.isSome = true → (busDescriptor i).isSome = true →
    exec i s = .refused .memoryMapped) ∧
  ∀ (s : State) (a : Addr) (q : Bool), s.window = none →
    (s.tx.length = 0 ∨ 8 < s.tx.length → exec (.qpp a) s = .refused .dataLength) ∧
    (s.tx.length ≠ 1 → exec (.wrsr1 q) s = .refused .dataLength ∧ exec (.wrcr q) s = .refused .dataLength ∧
      exec .srp s = .refused .dataLength) ∧
    (s.count = 0 → exec (.qread a) s = .refused .dataLength)

/-! ### Register access, identification and region read -/

/-- R152, R154: one fresh read at the width of `qia`, and its byte handed to the host; in every environment. -/
def Obligations.RegisterReadOperations : Prop :=
  ∀ s : State, Ready s →
    (∃ t b, exec .readSr1 s = .next t ∧ Reply 1 s t [b] ∧ t.trace = s.trace ++ [registerRead 0x05 (width s.qia) b] ∧
      QuietEnd (.done [b]) s t ∧ SameFlash s t) ∧
    (∃ t b, exec .readCr s = .next t ∧ Reply 1 s t [b] ∧ t.trace = s.trace ++ [registerRead 0x35 (width s.qia) b] ∧
      QuietEnd (.done [b]) s t ∧ SameFlash s t)

/-- R153, R155: one write at the width of `qia`, nothing before it and nothing after it, the value sent unchanged; `mode` stays
(R278). On the reference device the register takes the value. -/
def Obligations.RegisterWriteOperations : Prop :=
  ∀ (s : State) (v : Byte), Ready s →
    (∃ t, exec (.writeSr1 v) s = .next t ∧ t.trace = s.trace ++ [registerWrite 0x01 (width s.qia) v] ∧
      QuietEnd (.done []) s t ∧ SameFlash s t ∧
      (s.env = .refFlash → t.device.sr1 = v ∧ t.device.cr = s.device.cr)) ∧
    (∃ t, exec (.writeCr v) s = .next t ∧ t.trace = s.trace ++ [registerWrite 0x31 (width s.qia) v] ∧
      QuietEnd (.done []) s t ∧ SameFlash s t ∧
      (s.env = .refFlash → t.device.cr = v ∧ t.device.sr1 = s.device.sr1))

/-- R215, R220: three bytes, single-wire in every mode, handed to the host in the order received. -/
def Obligations.IdentifyOperation : Prop :=
  ∀ s : State, Ready s →
    ∃ t bs, exec .readIdentify s = .next t ∧ Reply 3 s t bs ∧ t.trace = s.trace ++ [.rd identifyRead 3 bs] ∧
      QuietEnd (.done bs) s t ∧ SameFlash s t

/-- R216, R218: one transaction whatever the length, at the same widths in every mode; byte `i` received is stored at `Dst[i]`. The
two refusals of the rule. -/
def Obligations.RegionReadOperation : Prop :=
  (∀ (s : State) (a : Addr) (n : Nat), Ready s →
    (n = 0 → exec (.readRegion a n) s = .refused .zeroLength) ∧
    (1 ≤ n → 2 ^ 24 < a.toNat + n → exec (.readRegion a n) s = .refused .pastTop)) ∧
  ∀ (s : State) (a : Addr) (n : Nat), Ready s → 1 ≤ n → a.toNat + n ≤ 2 ^ 24 →
    ∃ t bs, exec (.readRegion a n) s = .next t ∧ Reply n s t bs ∧ t.trace = s.trace ++ [.rd (regionRead a) n bs] ∧
      Ended (.done []) s t ∧ ChunkerKept s t ∧ t.mode = s.mode ∧ t.window = s.window ∧ SameFlash s t ∧
      ∀ i, i < n → t.dst[i]? = bs[i]?

/-- The rest of the buffer after READ_REGION: bytes of `Dst` from `len` on stay (log entry 24, the model's choice). On the reference
device the bytes stored are those of the array, byte `i` from address `a + i` (R58). -/
def Obligations.RegionReadBuffer : Prop :=
  ∀ (s : State) (a : Addr) (n : Nat), Ready s → 1 ≤ n → a.toNat + n ≤ 2 ^ 24 →
    ∃ t, exec (.readRegion a n) s = .next t ∧ (∀ i, n ≤ i → t.dst[i]? = s.dst[i]?) ∧
      (s.env = .refFlash → a.toNat + n ≤ flashBytes s.params →
        ∀ i, i < n → t.dst[i]? = some (flashAt s (a.toNat + i)))

/-! ### The mode-entry operations -/

/-- R138, in every environment: ENABLE_QUAD reads CR once, and when Quad-Enable is set in the byte that came back that one event
is all; when it is clear the operation goes on. -/
def Obligations.QuadEnableIdempotent : Prop :=
  ∀ s : State, Ready s →
    ∃ t cr, exec .enableQuad s = .next t ∧ Reply 1 s t [cr] ∧
      t.trace = s.trace ++ [registerRead 0x35 (width s.qia) cr] ∧ SameFlash s t ∧
      (cr &&& 0x02 ≠ 0 → Ended (.done []) s t ∧ ChunkerKept s t ∧ t.mode = raised s.mode ∧ t.window = s.window ∧
        t.dst = s.dst) ∧
      (cr &&& 0x02 = 0 → t.ctl = .busy)

/-- R131: ENABLE_QUAD, whole, for every pair of bytes the device returns. -/
def Obligations.EnableQuadRuns : Prop :=
  ∀ (s : State) (cr sr : Byte) (rs : List Byte), Launch s (quadReplies cr sr ++ rs) →
    ∃ t, RunsThrough .enableQuad s (quadEvents (width s.qia) cr sr) t ∧ Ended (.done []) s t ∧ ChunkerKept s t ∧
      t.mode = raised s.mode ∧ t.window = none ∧ t.dst = s.dst ∧ t.replies = rs

/-- R132, R139: ENTER_QPI, whole: nothing when `qia` is already true, in a state that meets the invariant (with no transport call
there is none to use up the arguments of one, which `Safety.Inv.port` says are not there); else ENABLE_QUAD single-wire, the two single-wire
commands, and the parameter write quad. -/
def Obligations.EnterQpiRuns : Prop :=
  (∀ s : State, Inv s → Ready s → s.qia = true →
    ∃ t, exec .enterQpi s = .next t ∧ t.trace = s.trace ∧ QuietEnd (.done []) s t ∧ t.device = s.device ∧
      t.replies = s.replies) ∧
  ∀ (s : State) (cr sr : Byte) (rs : List Byte), Launch s (quadReplies cr sr ++ rs) → s.qia = false →
    ∃ t, RunsThrough .enterQpi s (quadEvents .single cr sr ++ qpiEvents s.params.readParams) t ∧
      Ended (.done []) s t ∧ ChunkerKept s t ∧ t.mode = .qpi ∧ t.window = none ∧ t.dst = s.dst ∧ t.replies = rs

/-- R133: ENTER_MEMORY_MAP, whole: ENTER_QPI, one arm, and the terminal mode, in which it is refused. -/
def Obligations.EnterMemoryMapRuns : Prop :=
  (∀ s : State, s.ctl = .idle → s.mode = .memoryMapped → exec .enterMemoryMap s = .refused .memoryMapped) ∧
  (∀ s : State, Ready s → s.qia = true →
    ∃ t, exec .enterMemoryMap s = .next t ∧ t.trace = s.trace ++ [.arm template] ∧ Ended (.done []) s t ∧
      ChunkerKept s t ∧ t.mode = .memoryMapped ∧ t.window = some template ∧ t.dst = s.dst ∧ SameFlash s t) ∧
  ∀ (s : State) (cr sr : Byte) (rs : List Byte), Launch s (quadReplies cr sr ++ rs) → s.qia = false →
    ∃ t, RunsThrough .enterMemoryMap s
        (quadEvents .single cr sr ++ qpiEvents s.params.readParams ++ [.arm template]) t ∧
      Ended (.done []) s t ∧ ChunkerKept s t ∧ t.mode = .memoryMapped ∧ t.window = some template ∧ t.dst = s.dst ∧
      t.replies = rs

/-! ### The sequencer -/

namespace Sys2Proof.Claims

/-- The four commands of RESET (R178). -/
def resetEvents : List Event := [bare 0x66 .quad, bare 0x99 .quad, bare 0x66 .single, bare 0x99 .single]

end Sys2Proof.Claims

/-- R178: RESET, whole, for every number of polls; no state of the block changes, `mode` included. -/
def Obligations.ResetSequenceRuns : Prop :=
  ∀ (s : State) (busy : List Byte) (last : Byte) (rs : List Byte), Launch s (busy ++ last :: rs) → Waits busy last →
    ∃ t, RunsThrough .reset s (resetEvents ++ polls s.qia (busy ++ [last])) t ∧ QuietEnd (.done []) s t ∧
      t.replies = rs

/-- R179: INIT is RESET and then ENABLE_QUAD. -/
def Obligations.InitRuns : Prop :=
  ∀ (s : State) (busy : List Byte) (last cr sr : Byte) (rs : List Byte),
    Launch s (busy ++ last :: (quadReplies cr sr ++ rs)) → Waits busy last →
    ∃ t, RunsThrough .init s
        (resetEvents ++ polls s.qia (busy ++ [last]) ++ quadEvents (width s.qia) cr sr) t ∧
      Ended (.done []) s t ∧ ChunkerKept s t ∧ t.mode = raised s.mode ∧ t.window = none ∧ t.dst = s.dst ∧
      t.replies = rs

/-- R173 to R176: the four erases, whole: write-enable, the command with the address as given, polls until WIP reads clear. -/
def Obligations.EraseOperationsRun : Prop :=
  ∀ (s : State) (a : Addr) (busy : List Byte) (last : Byte) (rs : List Byte), Launch s (busy ++ last :: rs) →
    Waits busy last →
    (∃ t, RunsThrough (.sectorErase a) s ([writeEnable, aimed 0x20 a] ++ polls s.qia (busy ++ [last])) t ∧
      QuietEnd (.done []) s t ∧ t.replies = rs) ∧
    (∃ t, RunsThrough (.blockErase32k a) s ([writeEnable, aimed 0x52 a] ++ polls s.qia (busy ++ [last])) t ∧
      QuietEnd (.done []) s t ∧ t.replies = rs) ∧
    (∃ t, RunsThrough (.blockErase64k a) s ([writeEnable, aimed 0xD8 a] ++ polls s.qia (busy ++ [last])) t ∧
      QuietEnd (.done []) s t ∧ t.replies = rs) ∧
    (∃ t, RunsThrough .chipErase s ([writeEnable, bare 0xC7 .single] ++ polls s.qia (busy ++ [last])) t ∧
      QuietEnd (.done []) s t ∧ t.replies = rs)

/-- R177: PAGE_PROGRAM, whole: the three transactions where the bytes fit in the page, the fault before any of them where they do
not, the refusal of a length of zero. What is sent for a `Src` of fewer than `len` bytes, which the rule's operands exclude, is
`PageProgramOfShortSource`'s. -/
def Obligations.PageProgramRuns : Prop :=
  (∀ (s : State) (a : Addr), Ready s → exec (.pageProgram a 0) s = .refused .zeroLength) ∧
  (∀ (s : State) (a : Addr) (n : Nat), Ready s → 1 ≤ n → a.toNat + n ≤ 2 ^ 24 → 8 < a.toNat % 8 + n →
    ∃ t, exec (.pageProgram a n) s = .next t ∧ t.ctl = .halted ∧ t.response = .fault .pageBoundary ∧ t.trace = s.trace ∧
      t.device = s.device) ∧
  ∀ (s : State) (a : Addr) (n : Nat) (busy : List Byte) (last : Byte) (rs : List Byte),
    Launch s (busy ++ last :: rs) → Waits busy last → 1 ≤ n → a.toNat + n ≤ 2 ^ 24 → n ≤ s.src.length →
    a.toNat % 8 + n ≤ 8 →
    ∃ t, RunsThrough (.pageProgram a n) s
        ([writeEnable, program a (s.src.take n)] ++ polls s.qia (busy ++ [last])) t ∧
      QuietEnd (.done []) s t ∧ t.replies = rs

/-- PAGE_PROGRAM inside its page with fewer than `len` bytes in `Src`, which the acceptance rule does not refuse (R234): it runs like
any other, the bytes `Src` holds first and in order, and the others free. That they are free bytes is the model's choice (log entry
15). -/
def Obligations.PageProgramOfShortSource : Prop :=
  ∀ (s : State) (a : Addr) (n : Nat) (busy : List Byte) (last : Byte) (rs : List Byte),
    Launch s (busy ++ last :: rs) → Waits busy last → a.toNat + n ≤ 2 ^ 24 → s.src.length < n → a.toNat % 8 + n ≤ 8 →
    ∃ (t : State) (bytes : List Byte), bytes.length = n ∧ bytes.take s.src.length = s.src ∧
      RunsThrough (.pageProgram a n) s
        ([writeEnable, program a bytes] ++ polls s.qia (busy ++ [last])) t ∧
      QuietEnd (.done []) s t ∧ t.replies = rs

/-- R230, R236, R237, R231: where the bytes do not fit, the fault, before any transaction and whatever `Src` holds: Halted, the host
sees `fault`, the operands stay in the latches, and nothing else changes. -/
def Obligations.PageProgramFaults : Prop :=
  ∀ (s : State) (a : Addr) (n : Nat), Ready s → 1 ≤ n → a.toNat + n ≤ 2 ^ 24 → 8 < a.toNat % 8 + n →
    exec (.pageProgram a n) s =
      .next { s with
        op := 0x0E, addr := a, len := n, ctl := .halted, rest := [], response := .fault .pageBoundary }

/-- R233, R172: the busy-wait has no bound. As long as every byte returned has WIP set, a block that waits polls once a step, the
same event each time, and is still waiting. -/
def Obligations.BusyWaitHasNoBound : Prop :=
  ∀ (s : State) (k : List Stmt) (bytes rs : List Byte), s.resetPending = false → s.ctl = .busy → s.window = none →
    s.env = .oracle → s.rest = .testWip :: k → firstByte s.rx &&& 0x01 ≠ 0 → s.replies = bytes ++ rs →
    (∀ b ∈ bytes, b &&& 0x01 ≠ 0) →
    ∃ t, RunsTo bytes.length s t ∧ t.ctl = .busy ∧ t.rest = s.rest ∧ t.mode = s.mode ∧
      t.trace = s.trace ++ polls s.qia bytes ∧ t.replies = rs

/-! ### The chunker -/

/-- R200 to R204: WRITE_REGION, whole, for every number of polls after each chunk. `waits` holds the replies to the polls of each
chunk. There is one call for each of `ceil(((addr mod 8) + len) / 8)` chunks (R204); each call obeys the chunk law (R201) at
the cursor, which starts at `addr` and advances by the chunk (R203); none crosses a page (R202); and the payloads in order are
`Src` (R203). Where a precondition of R205 fails it is refused: no bytes, a range past the top, fewer than `len` bytes of `Src`; that
the last of them is tested after the range is the model's choice (log entry 15). -/
def Obligations.WriteRegionRuns : Prop :=
  (∀ (s : State) (a : Addr) (n : Nat), Ready s →
    (n = 0 → exec (.writeRegion a n) s = .refused .zeroLength) ∧
    (1 ≤ n → 2 ^ 24 < a.toNat + n → exec (.writeRegion a n) s = .refused .pastTop) ∧
    (1 ≤ n → a.toNat + n ≤ 2 ^ 24 → s.src.length < n → exec (.writeRegion a n) s = .refused .shortSource)) ∧
  ∀ (s : State) (a : Addr) (n : Nat) (waits : List (List Byte × Byte)) (rs : List Byte),
    Launch s ((waits.map (fun w => w.1 ++ [w.2])).flatten ++ rs) → (∀ w ∈ waits, Waits w.1 w.2) →
    1 ≤ n → a.toNat + n ≤ 2 ^ 24 → n ≤ s.src.length → waits.length = (a.toNat % 8 + n + 7) / 8 →
    ∃ (calls : List (Nat × List Byte)) (t : State),
      calls.length = waits.length ∧
      (calls.map Prod.snd).flatten = s.src.take n ∧
      (∀ (j : Nat) (h : j < calls.length),
        calls[j].1 = a.toNat + ((calls.take j).map (fun c => c.2.length)).sum ∧
        calls[j].2.length = min (8 - calls[j].1 % 8) (a.toNat + n - calls[j].1) ∧
        1 ≤ calls[j].2.length ∧ calls[j].1 % 8 + calls[j].2.length ≤ 8) ∧
      RunsThrough (.writeRegion a n) s
        ((calls.zip waits).flatMap (fun cw =>
          [writeEnable, program (BitVec.ofNat 24 cw.1.1) cw.1.2] ++ polls s.qia (cw.2.1 ++ [cw.2.2]))) t ∧
      Ended (.done []) s t ∧ t.mode = s.mode ∧ t.window = none ∧ t.dst = s.dst ∧ t.replies = rs

/-- R207: the fatal check cannot fire under WRITE_REGION. An accepted one is Busy after its first step, and no step of a Busy
block halts it, so the check is reached only through the host operation PAGE_PROGRAM. -/
def Obligations.WriteRegionNeverFaults : Prop :=
  (∀ (s t : State) (a : Addr) (n : Nat), exec (.writeRegion a n) s = .next t → t.ctl = .busy) ∧
  (∀ s t : State, Inv s → s.ctl = .busy → step s = .next t → t.ctl ≠ .halted) ∧
  ∀ (s t : State) (i : Instr), s.ctl = .idle → exec i s = .next t → t.ctl = .halted → ∃ a n, i = .pageProgram a n

/-- R58, R203 on the reference device: after WRITE_REGION over erased bytes the array holds `Src` over `[a, a + n)` and every
other byte as before. Each chunk takes a write-enable, a program and `B_prog + 1` polls. -/
def Obligations.WriteRegionStoresSource : Prop :=
  ∀ (s : State) (a : Addr) (n : Nat), Ready s → s.resetPending = false → s.env = .refFlash →
    Memory.wf s.params s.device.flash → 1 ≤ n → a.toNat + n ≤ flashBytes s.params → n ≤ s.src.length →
    (∀ b, a.toNat ≤ b → b < a.toNat + n → flashAt s b = s.params.erasedByte) →
    ∃ u t, exec (.writeRegion a n) s = .next u ∧
      RunsTo ((a.toNat % 8 + n + 7) / 8 * (s.params.bProg + 3) - 1) u t ∧ t.ctl = .idle ∧ t.response = .done [] ∧
      (∀ i, i < n → s.src[i]? = some (flashAt t (a.toNat + i))) ∧
      ∀ b, b < a.toNat ∨ a.toNat + n ≤ b → flashAt t b = flashAt s b

/-! ### Acceptance, the fault and the terminal mode -/

/-- R234, R236: each of the 17 operations is refused for the first condition that fails, in the order of the table, and otherwise
accepted; the page check refuses none. An unassigned code is refused before MemoryMapped and after Halted and Busy. That WRITE_REGION
has its `len` bytes of `Src` (R205 (c)) is tested last, which is the model's reading (log entry 15). -/
def Obligations.RequestsRefusedInOrder : Prop :=
  (∀ (s : State) (a : Addr) (n : Nat) (v : Byte), (s.mode ≠ .memoryMapped → s.window = none) →
    AcceptedUnless .init none True s ∧ AcceptedUnless .reset none True s ∧ AcceptedUnless .enableQuad none True s ∧
    AcceptedUnless .enterQpi none True s ∧ AcceptedUnless .enterMemoryMap none True s ∧
    AcceptedUnless .readSr1 none True s ∧ AcceptedUnless (.writeSr1 v) none True s ∧
    AcceptedUnless .readCr none True s ∧ AcceptedUnless (.writeCr v) none True s ∧
    AcceptedUnless (.sectorErase a) none True s ∧ AcceptedUnless (.blockErase32k a) none True s ∧
    AcceptedUnless (.blockErase64k a) none True s ∧ AcceptedUnless .chipErase none True s ∧
    AcceptedUnless (.pageProgram a n) (some (a, n)) True s ∧
    AcceptedUnless (.writeRegion a n) (some (a, n)) (n ≤ s.src.length) s ∧
    AcceptedUnless .readIdentify none True s ∧ AcceptedUnless (.readRegion a n) (some (a, n)) True s) ∧
  (∀ (s : State) (r : Request), s.ctl = .busy → hostRequest exec r s = .refused .busy) ∧
  ∀ (s : State) (r : Request) (ms : List HostMove), s.resetPending = false → s.agenda = .request r :: ms →
    (r.word.extractLsb' 0 5 = 0 ∨ 0x12 ≤ (r.word.extractLsb' 0 5).toNat) →
    (s.ctl = .idle → step s = .refused .unassignedCode) ∧ (s.ctl = .halted → step s = .refused .halted)

/-- R136, R70, R266: MemoryMapped is terminal. Every request is refused; without a hardware reset no step leaves the mode, issues
an event, disarms the window or changes what is seen through it. -/
def Obligations.MemoryMappedIsTerminal : Prop :=
  (∀ (s : State) (i : Instr), s.ctl = .idle → s.mode = .memoryMapped → (hostCode i).isSome = true →
    exec i s = .refused .memoryMapped) ∧
  ∀ s t : State, Inv s → s.mode = .memoryMapped → s.resetPending = false → step s = .next t →
    t.mode = .memoryMapped ∧ t.trace = s.trace ∧ t.window = s.window ∧ t.device = s.device

/-- R238: Halted is sticky. Every later request is refused, no step issues anything, and only hardware reset leaves it. -/
def Obligations.HaltedIsSticky : Prop :=
  (∀ (s : State) (r : Request) (ms : List HostMove), s.resetPending = false → s.ctl = .halted →
    s.agenda = .request r :: ms → step s = .refused .halted) ∧
  (∀ (s : State) (i : Instr), s.ctl = .halted → (hostCode i).isSome = true → exec i s = .refused .halted) ∧
  ∀ s t : State, s.resetPending = false → s.ctl = .halted → step s = .next t →
    t.ctl = .halted ∧ t.trace = s.trace ∧ t.mode = s.mode ∧ t.device = s.device

/-! ### The launch premise and the end of a run -/

/-- The launch premise of R262 and R276, and what it gives: in a state the machine reached from a hardware reset by INIT, or by RESET,
reads and ENABLE_QUAD, and then any steps, Quad-Enable has been run and no hardware reset is owed. -/
def Obligations.LaunchedStatesAreQuadEnabled : Prop :=
  ∀ s : State, Launched s → s.mode ≠ .singleWire ∧ s.resetPending = false

/-- R282, R238, R136: a block that is Halted, or MemoryMapped and Idle, refuses every request that is left, so its run is over; it is
not good where the block is Halted or a request was left, which is refused. -/
def Obligations.TerminalStatesEndTheRun : Prop :=
  ∀ s : State, s.resetPending = false → s.ctl = .halted ∨ s.ctl = .idle ∧ s.mode = .memoryMapped →
    runOver s = true ∧ (goodEnd s = true ↔ s.ctl = .idle ∧ ∀ r, HostMove.request r ∉ s.agenda)

/-- R282: a good end is an end of the run, and what follows is no run of the block: whatever loads the host still makes, no event is
issued, and the mode and the device stay. -/
def Obligations.GoodEndIsFinal : Prop :=
  (∀ s : State, goodEnd s = true → runOver s = true) ∧
  ∀ s t : State, goodEnd s = true → s.resetPending = false → step s = .next t →
    goodEnd t = true ∧ t.trace = s.trace ∧ t.mode = s.mode ∧ t.device = s.device

/-! ### Loads through the window -/

/-- R57, R55: a load of `k` bytes at `MMAP_BASE + o` returns the little-endian word of the flash bytes from `o`, and changes nothing
else; it is no event of the trace (R217). -/
def Obligations.WindowLoadIsLittleEndian : Prop :=
  ∀ (s : State) (o k : Nat) (ms : List HostMove), s.resetPending = false → s.ctl ≠ .busy →
    s.window.isSome = true → s.agenda = .load (s.params.mmapBase + o) k :: ms → 1 ≤ k →
    o + k ≤ flashBytes s.params →
    step s = .next { s with
      agenda := ms, loaded := some (∑ i ∈ Finset.range k, (flashAt s (o + i)).toNat * 256 ^ i) }

/-- Where a load stops: refused while the window is not armed (R217, R274) or for no bytes at all (D32), a fault where some byte
lies outside the window (R55); the names of the stops and their order are the model's (log entry 18). -/
def Obligations.WindowLoadStops : Prop :=
  ∀ (s : State) (address k : Nat) (ms : List HostMove), s.resetPending = false → s.ctl ≠ .busy →
    s.agenda = .load address k :: ms →
    (s.window = none → step s = .refused .windowNotArmed) ∧
    (s.window.isSome = true → k = 0 → step s = .refused .emptyLoad) ∧
    (s.window.isSome = true → 1 ≤ k →
      (address < s.params.mmapBase ∨ s.params.mmapBase + flashBytes s.params < address + k) →
      step s = .fault .outsideWindow)

/-! ### The whole machine -/

/-- Every step keeps the invariant `Safety.Inv`: the flash array canonical, the window armed exactly in MemoryMapped (R37 (c)), a
Busy block at a position of its operation (R23) and a block at rest without one, no argument of a call outliving it (R27), the
ranges of R24 and R25, the loop equations of R37 (e), and R37 (d). -/
def Obligations.EveryStepKeepsInvariant : Prop :=
  ∀ s t : State, Inv s → step s = .next t → Inv t

/-- A Busy block is never stuck, and it ends Idle or goes on (R13, R23, R114): no step of it faults, is refused or halts. -/
def Obligations.BusyBlockIsNeverStuck : Prop :=
  ∀ s : State, Inv s → s.ctl = .busy → s.resetPending = false → ∃ t, step s = .next t ∧ (t.ctl = .busy ∨ t.ctl = .idle)

/-- R134: no operation moves the mode backward, and RESET does not write it. -/
def Obligations.ModeIsMonotone : Prop :=
  (∀ s t : State, Inv s → s.resetPending = false → step s = .next t → s.mode.rank ≤ t.mode.rank) ∧
  (∀ s t : State, exec .reset s = .next t → t.mode = s.mode) ∧
  ∀ s t : State, Inv s → s.resetPending = false → s.ctl = .busy → s.op = 0x02 → step s = .next t → t.mode = s.mode

/-- R22: `qia` is true exactly in QPI and MemoryMapped, no step clears it but hardware reset, and the only operation that sets
it is ENTER_QPI, requested or called by ENTER_MEMORY_MAP. -/
def Obligations.QuadInterfaceFlag : Prop :=
  (∀ s : State, s.qia = true ↔ s.mode = .qpi ∨ s.mode = .memoryMapped) ∧
  (∀ s t : State, Inv s → s.resetPending = false → step s = .next t → s.qia = true → t.qia = true) ∧
  ∀ s t : State, Inv s → step s = .next t → s.qia = false → t.qia = true →
    s.ctl = .busy ∧ (s.op = 0x04 ∨ s.op = 0x05)

/-- R37, all six invariants, over every run from an Idle state that meets them, with any coming moves of the host and any
environment. -/
def Obligations.ReachableStateInvariants : Prop :=
  ∀ (s t : State) (k : Nat), Inv s → s.ctl = .idle → s.resetPending = false → TraceFacts s → RunsTo k s t →
    s.mode.rank ≤ t.mode.rank ∧
    (t.qia = true → List.Sublist [bare 0x38 .single, writeEnable] t.trace) ∧
    (t.window.isSome = true ↔ t.mode = .memoryMapped) ∧
    (t.ctl = .halted → t.op = 0x0E ∧ 8 < t.addr.toNat % 8 + t.len) ∧
    (t.ctl = .busy → t.op = 0x0F →
      t.cursor + t.remaining = t.addr.toNat + t.len ∧ t.srcOff + t.remaining = t.len) ∧
    ∀ e ∈ t.trace, (descriptorOf e).legal

/-- R180, R263: write-enable adjacency, over every run from an Idle state whose trace obeys it: every erase or program event is
immediately preceded by the write-enable and immediately followed by polls, all but the last with WIP set; between operations
nothing is owed. -/
def Obligations.WriteEnableAdjacency : Prop :=
  ∀ (s t : State) (k : Nat), Inv s → s.ctl = .idle → phaseOf .calm s.trace = some .calm → RunsTo k s t →
    (∃ p, phaseOf .calm t.trace = some p) ∧ (t.ctl ≠ .busy → phaseOf .calm t.trace = some .calm)

/-- R90, R10: a step issues at most one transaction, and it is one of the table of R86, in its descriptor, its kind and its data
length; from every state whatever. -/
def Obligations.OnlyTableCommandsAreIssued : Prop :=
  ∀ s t : State, step s = .next t →
    (s.resetPending = true ∧ t.trace = []) ∨ t.trace = s.trace ∨ ∃ e, t.trace = s.trace ++ [e] ∧ TableEvent e

/-- R265, R52: no QPP command crosses a page. -/
def Obligations.NoProgramCrossesPage : Prop :=
  ∀ s t : State, Inv s → step s = .next t → (∀ e ∈ s.trace, PageSafe e) → ∀ e ∈ t.trace, PageSafe e

/-- R21: no transaction depends on whether `mode` is SingleWire or QuadRegisterEnabled: two runs that start in one and the other
differ in nothing but that. -/
def Obligations.SingleWireLooksLikeQuadRegister : Prop :=
  ∀ (s t : State) (k : Nat), s.mode = .singleWire → RunsTo k s t →
    ∃ t', RunsTo k { s with mode := .quadRegisterEnabled } t' ∧ t' = { t with mode := t'.mode } ∧ t'.qia = t.qia

/-- R33: the trace is ghost state: a step reads nothing of it and only appends. -/
def Obligations.TraceIsGhostState : Prop :=
  ∀ (s : State) (tr : List Event), s.resetPending = false →
    step { s with trace := tr } =
      match step s with
      | .next t => .next { t with trace := tr ++ t.trace.drop s.trace.length }
      | .fault f => .fault f
      | .refused r => .refused r

/-- R38: no rule depends on a value that is unspecified while no operation is in progress: a run from an Idle state comes out the
same whatever the working registers and the operand latches held. -/
def Obligations.IdleRegistersDoNotMatter : Prop :=
  ∀ (s s' t : State) (k : Nat), Inv s → s.ctl = .idle → AgreeOutsideRegisters s s' → RunsTo k s t →
    ∃ t', RunsTo k s' t' ∧ AgreeOutsideRegisters t t'

/-- R6, R56: no step changes the parameters or the environment's identity, and while an operation is in progress none changes
`Src`. -/
def Obligations.ParametersAndSourceAreFixed : Prop :=
  ∀ s t : State, step s = .next t → t.params = s.params ∧ t.env = s.env ∧ (s.ctl = .busy → t.src = s.src)

/-! ### The reference device (D26) -/

/-- The array of the reference device changes only as the event a step issued says (RefFlash table, R53, R58): the frame of memory
for every instruction and every step. -/
def Obligations.FlashChangesOnlyByEvent : Prop :=
  ∀ s t : State, s.env = .refFlash → Memory.wf s.params s.device.flash → step s = .next t →
    ∀ b, flashAt t b = flashAt s b ∨ ∃ e, t.trace = s.trace ++ [e] ∧ touches s.params e b

namespace Sys2Proof.Claims

/-- The command completes and leaves the device `d`. -/
def LeavesDevice (i : Instr) (s : State) (d : Device) : Prop := ∃ t, exec i s = .next t ∧ t.device = d

/-- The command completes and keeps the device busy for `n` polls; nothing else of it but the array may change. -/
def Occupies (i : Instr) (s : State) (n : Nat) : Prop :=
  ∃ t, exec i s = .next t ∧ t.device = { s.device with flash := t.device.flash, busy := n }

/-- The read completes and returns the bytes `bs`, and leaves the device `d`. -/
def Returns (i : Instr) (s : State) (bs : List Byte) (d : Device) : Prop :=
  ∃ t, exec i s = .next t ∧ t.rx = bs ∧ t.device = d

end Sys2Proof.Claims

/-- The RefFlash table, every row, but for what an erase or a program does to the array, which EraseCommandsComplete and
PageProgramCommandCompletes say: its registers, its identification, its busy count, the bytes of a region read, and the commands
that do nothing to it. -/
def Obligations.ReferenceDeviceRegisters : Prop :=
  ∀ (s : State) (w q : Bool) (a : Addr), s.env = .refFlash → s.window = none →
    LeavesDevice (.rsten w) s s.device ∧ LeavesDevice .wren s s.device ∧ LeavesDevice .enqpi s s.device ∧
    LeavesDevice .qioread s s.device ∧
    LeavesDevice (.rst w) s { s.device with busy := s.params.bReset } ∧
    Occupies (.se a) s s.params.bErase ∧ Occupies (.be32 a) s s.params.bErase ∧ Occupies (.be64 a) s s.params.bErase ∧
    Occupies .ce s s.params.bErase ∧
    (1 ≤ s.tx.length → s.tx.length ≤ 8 → Occupies (.qpp a) s s.params.bProg) ∧
    Returns (.rdsr1 q) s [(s.device.sr1 &&& 0xFE) ||| (if 0 < s.device.busy then 1 else 0)]
      { s.device with busy := s.device.busy - 1 } ∧
    Returns (.rdcr q) s [s.device.cr] s.device ∧
    Returns .rdid s [s.params.refId0, s.params.refId1, s.params.refId2] s.device ∧
    (1 ≤ s.count → LeavesDevice (.qread a) s s.device) ∧
    (1 ≤ s.count → a.toNat + s.count ≤ flashBytes s.params →
      Returns (.qread a) s ((List.range s.count).map (fun i => flashAt s (a.toNat + i))) s.device) ∧
    ∀ v : Byte, s.tx = [v] →
      LeavesDevice (.wrsr1 q) s { s.device with sr1 := v } ∧ LeavesDevice (.wrcr q) s { s.device with cr := v } ∧
      LeavesDevice .srp s s.device
end

