-- ==== Sys2Proof/Laws/Decode.lean ====
section
/-! SUPPORT. Packing and unpacking descriptors and request words: each field is read back from where it was put, and a
packed row of R86 decodes to its instruction. -/
namespace Sys2Proof

/-- The high part of an append. -/
theorem extract_high {v w : Nat} (x : BitVec v) (y : BitVec w) : (x ++ y).extractLsb' w v = x := by
  rw [BitVec.extractLsb'_append_eq_of_le (Nat.le_refl w), Nat.sub_self]
  exact BitVec.extractLsb'_eq_self

/-- A field inside the low part of an append. -/
theorem extract_low {v w : Nat} (s n : Nat) (x : BitVec v) (y : BitVec w) (h : s + n ≤ w) :
    (x ++ y).extractLsb' s n = y.extractLsb' s n :=
  BitVec.extractLsb'_append_eq_of_add_le h

@[simp] theorem pack_opcode (d : Descriptor) : d.pack.extractLsb' 35 8 = d.opcode := extract_high _ _

@[simp] theorem pack_iw (d : Descriptor) : d.pack.extractLsb' 33 2 = d.iw.code :=
  (extract_low (v := 8) (w := 35) 33 2 _ _ (by decide)).trans (extract_high _ _)

@[simp] theorem pack_aw (d : Descriptor) : d.pack.extractLsb' 31 2 = d.aw.code :=
  (extract_low (v := 8) (w := 35) 31 2 _ _ (by decide)).trans <|
  (extract_low (v := 2) (w := 33) 31 2 _ _ (by decide)).trans (extract_high _ _)

@[simp] theorem pack_dw (d : Descriptor) : d.pack.extractLsb' 29 2 = d.dw.code :=
  (extract_low (v := 8) (w := 35) 29 2 _ _ (by decide)).trans <|
  (extract_low (v := 2) (w := 33) 29 2 _ _ (by decide)).trans <|
  (extract_low (v := 2) (w := 31) 29 2 _ _ (by decide)).trans (extract_high _ _)

@[simp] theorem pack_dummy (d : Descriptor) : d.pack.extractLsb' 24 5 = d.dummy :=
  (extract_low (v := 8) (w := 35) 24 5 _ _ (by decide)).trans <|
  (extract_low (v := 2) (w := 33) 24 5 _ _ (by decide)).trans <|
  (extract_low (v := 2) (w := 31) 24 5 _ _ (by decide)).trans <|
  (extract_low (v := 2) (w := 29) 24 5 _ _ (by decide)).trans (extract_high _ _)

@[simp] theorem pack_address (d : Descriptor) : d.pack.extractLsb' 0 24 = d.address.getD 0 :=
  (extract_low (v := 8) (w := 35) 0 24 _ _ (by decide)).trans <|
  (extract_low (v := 2) (w := 33) 0 24 _ _ (by decide)).trans <|
  (extract_low (v := 2) (w := 31) 0 24 _ _ (by decide)).trans <|
  (extract_low (v := 2) (w := 29) 0 24 _ _ (by decide)).trans <|
  (extract_low (v := 5) (w := 24) 0 24 _ _ (by decide)).trans BitVec.extractLsb'_eq_self

@[simp] theorem widthOfCode_code (w : Width) : widthOfCode w.code = some w := by cases w <;> rfl

/-- A legal descriptor (R81) is read back from its packed word. -/
theorem unpack_pack {d : Descriptor} (h : d.legal) : unpack d.pack = .ok d := by
  obtain ⟨op, iw, aw, dw, a, du⟩ := d
  simp only [unpack, pack_opcode, pack_iw, pack_aw, pack_dw, pack_dummy, pack_address, widthOfCode_code]
  cases a <;> cases aw <;> simp_all [Descriptor.legal]

/-- Every row of R86 satisfies the invariant of R81. -/
theorem busDescriptor_legal {i : Instr} {d : Descriptor} (h : busDescriptor i = some d) : d.legal := by
  cases i <;> simp [busDescriptor] at h <;> subst h <;>
    simp [Descriptor.legal, registerAccess, opcodeOnly, addressed, mmapTemplate]

/-- No two rows share an opcode: the opcode finds the row's own instruction (R97). -/
theorem busCandidate_row {i : Instr} {d : Descriptor} (h : busDescriptor i = some d) : busCandidate d = some i := by
  cases i <;> simp only [busDescriptor, Option.some.injEq, reduceCtorEq] at h <;> subst h <;> try rfl
  all_goals
    rename_i b
    cases b <;> rfl

/-- The word of a bus command decodes to it. -/
theorem decodeBus_pack {i : Instr} {d : Descriptor} (h : busDescriptor i = some d) : decodeBus d.pack = .ok i := by
  simp [decodeBus, unpack_pack (busDescriptor_legal h), busCandidate_row h, h]

/-- What a bus word decodes to is a bus command, and the word's descriptor is its row's (R97). -/
theorem decodeBus_ok {w : BusWord} {i : Instr} (h : decodeBus w = .ok i) :
    ∃ d, unpack w = .ok d ∧ busDescriptor i = some d := by
  unfold decodeBus at h
  split at h
  · cases h
  · rename_i d hd
    split at h
    · cases h
    · split at h
      · cases h
        exact ⟨d, hd, ‹_›⟩
      · cases h

@[simp] theorem packRequest_op (op : BitVec 5) (a : Addr) (n : BitVec 25) (v : Byte) :
    (packRequest op a n v).extractLsb' 0 5 = op :=
  (extract_low (v := 8) (w := 64) 0 5 _ _ (by decide)).trans <|
  (extract_low (v := 7) (w := 57) 0 5 _ _ (by decide)).trans <|
  (extract_low (v := 25) (w := 32) 0 5 _ _ (by decide)).trans <|
  (extract_low (v := 24) (w := 8) 0 5 _ _ (by decide)).trans <|
  (extract_low (v := 3) (w := 5) 0 5 _ _ (by decide)).trans BitVec.extractLsb'_eq_self

@[simp] theorem packRequest_low (op : BitVec 5) (a : Addr) (n : BitVec 25) (v : Byte) :
    (packRequest op a n v).extractLsb' 5 3 = 0 :=
  (extract_low (v := 8) (w := 64) 5 3 _ _ (by decide)).trans <|
  (extract_low (v := 7) (w := 57) 5 3 _ _ (by decide)).trans <|
  (extract_low (v := 25) (w := 32) 5 3 _ _ (by decide)).trans <|
  (extract_low (v := 24) (w := 8) 5 3 _ _ (by decide)).trans (extract_high _ _)

@[simp] theorem packRequest_addr (op : BitVec 5) (a : Addr) (n : BitVec 25) (v : Byte) :
    (packRequest op a n v).extractLsb' 8 24 = a :=
  (extract_low (v := 8) (w := 64) 8 24 _ _ (by decide)).trans <|
  (extract_low (v := 7) (w := 57) 8 24 _ _ (by decide)).trans <|
  (extract_low (v := 25) (w := 32) 8 24 _ _ (by decide)).trans (extract_high _ _)

@[simp] theorem packRequest_len (op : BitVec 5) (a : Addr) (n : BitVec 25) (v : Byte) :
    (packRequest op a n v).extractLsb' 32 25 = n :=
  (extract_low (v := 8) (w := 64) 32 25 _ _ (by decide)).trans <|
  (extract_low (v := 7) (w := 57) 32 25 _ _ (by decide)).trans (extract_high _ _)

@[simp] theorem packRequest_high (op : BitVec 5) (a : Addr) (n : BitVec 25) (v : Byte) :
    (packRequest op a n v).extractLsb' 57 7 = 0 :=
  (extract_low (v := 8) (w := 64) 57 7 _ _ (by decide)).trans (extract_high _ _)

@[simp] theorem packRequest_value (op : BitVec 5) (a : Addr) (n : BitVec 25) (v : Byte) :
    (packRequest op a n v).extractLsb' 64 8 = v := extract_high _ _

/-- The fields of a request word are those it was packed from. -/
@[simp] theorem requestFields_pack (op : BitVec 5) (a : Addr) (n : BitVec 25) (v : Byte) :
    requestFields (packRequest op a n v) = { op := op, addr := a, len := n, value := v } := by
  simp [requestFields]

/-- A length in range is read back from its 25-bit field. -/
theorem length_roundtrip {n : Nat} (h : lengthOk n = true) : (BitVec.ofNat 25 n).toNat = n := by
  have h' : n ≤ 16777216 := of_decide_eq_true h
  rw [BitVec.toNat_ofNat]
  exact Nat.mod_eq_of_lt (by omega)

/-- The same, in the form simp brings the field to. -/
theorem length_mod {n : Nat} (h : lengthOk n = true) : n % 33554432 = n := by
  have h' : n ≤ 16777216 := of_decide_eq_true h
  exact Nat.mod_eq_of_lt (by omega)

/-- A request word with clear unused bits is rebuilt from its fields. -/
theorem packRequest_fields {w : HostWord} (h1 : w.extractLsb' 5 3 = 0) (h2 : w.extractLsb' 57 7 = 0) :
    packRequest (requestFields w).op (requestFields w).addr (requestFields w).len (requestFields w).value = w := by
  simp only [packRequest, requestFields, ← h1, ← h2]
  rw [BitVec.extractLsb'_append_extractLsb'_eq_extractLsb' (by rfl),
    BitVec.extractLsb'_append_extractLsb'_eq_extractLsb' (by rfl),
    BitVec.extractLsb'_append_extractLsb'_eq_extractLsb' (by rfl),
    BitVec.extractLsb'_append_extractLsb'_eq_extractLsb' (by rfl),
    BitVec.extractLsb'_append_extractLsb'_eq_extractLsb' (by rfl)]
  exact BitVec.extractLsb'_eq_self

/-- A request word with clear unused bits decodes by its fields. -/
theorem decodeHost_pack (op : BitVec 5) (a : Addr) (n : BitVec 25) (v : Byte) :
    decodeHost (packRequest op a n v) = decodeFields { op := op, addr := a, len := n, value := v } := by
  simp only [decodeHost, requestFields_pack, packRequest_low, packRequest_high]
  split <;> simp_all

end Sys2Proof
end

