-- ==== Sys2Proof/Laws/State.lean ====
section
/-! SUPPORT. One lemma per field for each named update of the state, true by rfl, so that no later proof unfolds a record
update. -/
namespace Sys2Proof.Machine

/-! ### finish -/

@[simp] theorem finish_mode (s : State) : (finish s).mode = s.mode := rfl
@[simp] theorem finish_ctl (s : State) : (finish s).ctl = .idle := rfl
@[simp] theorem finish_rest (s : State) : (finish s).rest = [] := rfl
@[simp] theorem finish_rx (s : State) : (finish s).rx = [] := rfl
@[simp] theorem finish_cursor (s : State) : (finish s).cursor = s.cursor := rfl
@[simp] theorem finish_remaining (s : State) : (finish s).remaining = s.remaining := rfl
@[simp] theorem finish_srcOff (s : State) : (finish s).srcOff = s.srcOff := rfl
@[simp] theorem finish_chunkLen (s : State) : (finish s).chunkLen = s.chunkLen := rfl
@[simp] theorem finish_tx (s : State) : (finish s).tx = s.tx := rfl
@[simp] theorem finish_count (s : State) : (finish s).count = s.count := rfl
@[simp] theorem finish_window (s : State) : (finish s).window = s.window := rfl
@[simp] theorem finish_trace (s : State) : (finish s).trace = s.trace := rfl
@[simp] theorem finish_src (s : State) : (finish s).src = s.src := rfl
@[simp] theorem finish_dst (s : State) : (finish s).dst = s.dst := rfl
@[simp] theorem finish_response (s : State) : (finish s).response = doneResponse s.response := rfl
@[simp] theorem finish_loaded (s : State) : (finish s).loaded = s.loaded := rfl
@[simp] theorem finish_agenda (s : State) : (finish s).agenda = s.agenda := rfl
@[simp] theorem finish_resetPending (s : State) : (finish s).resetPending = s.resetPending := rfl
@[simp] theorem finish_device (s : State) : (finish s).device = s.device := rfl
@[simp] theorem finish_env (s : State) : (finish s).env = s.env := rfl
@[simp] theorem finish_replies (s : State) : (finish s).replies = s.replies := rfl
@[simp] theorem finish_params (s : State) : (finish s).params = s.params := rfl

/-! ### freeWorking -/

@[simp] theorem freeWorking_mode (s : State) : (freeWorking s).mode = s.mode := rfl
@[simp] theorem freeWorking_ctl (s : State) : (freeWorking s).ctl = s.ctl := rfl
@[simp] theorem freeWorking_rest (s : State) : (freeWorking s).rest = s.rest := rfl
@[simp] theorem freeWorking_rx (s : State) : (freeWorking s).rx = s.rx := rfl
@[simp] theorem freeWorking_op (s : State) : (freeWorking s).op = s.op := rfl
@[simp] theorem freeWorking_addr (s : State) : (freeWorking s).addr = s.addr := rfl
@[simp] theorem freeWorking_len (s : State) : (freeWorking s).len = s.len := rfl
@[simp] theorem freeWorking_value (s : State) : (freeWorking s).value = s.value := rfl
@[simp] theorem freeWorking_tx (s : State) : (freeWorking s).tx = s.tx := rfl
@[simp] theorem freeWorking_count (s : State) : (freeWorking s).count = s.count := rfl
@[simp] theorem freeWorking_window (s : State) : (freeWorking s).window = s.window := rfl
@[simp] theorem freeWorking_trace (s : State) : (freeWorking s).trace = s.trace := rfl
@[simp] theorem freeWorking_src (s : State) : (freeWorking s).src = s.src := rfl
@[simp] theorem freeWorking_dst (s : State) : (freeWorking s).dst = s.dst := rfl
@[simp] theorem freeWorking_response (s : State) : (freeWorking s).response = s.response := rfl
@[simp] theorem freeWorking_loaded (s : State) : (freeWorking s).loaded = s.loaded := rfl
@[simp] theorem freeWorking_agenda (s : State) : (freeWorking s).agenda = s.agenda := rfl
@[simp] theorem freeWorking_resetPending (s : State) : (freeWorking s).resetPending = s.resetPending := rfl
@[simp] theorem freeWorking_device (s : State) : (freeWorking s).device = s.device := rfl
@[simp] theorem freeWorking_env (s : State) : (freeWorking s).env = s.env := rfl
@[simp] theorem freeWorking_replies (s : State) : (freeWorking s).replies = s.replies := rfl
@[simp] theorem freeWorking_params (s : State) : (freeWorking s).params = s.params := rfl

/-! ### takePayload -/

@[simp] theorem takePayload_mode (off n : Nat) (s : State) : (takePayload off n s).mode = s.mode := rfl
@[simp] theorem takePayload_ctl (off n : Nat) (s : State) : (takePayload off n s).ctl = s.ctl := rfl
@[simp] theorem takePayload_rest (off n : Nat) (s : State) : (takePayload off n s).rest = s.rest := rfl
@[simp] theorem takePayload_rx (off n : Nat) (s : State) : (takePayload off n s).rx = s.rx := rfl
@[simp] theorem takePayload_cursor (off n : Nat) (s : State) : (takePayload off n s).cursor = s.cursor := rfl
@[simp] theorem takePayload_remaining (off n : Nat) (s : State) : (takePayload off n s).remaining = s.remaining := rfl
@[simp] theorem takePayload_srcOff (off n : Nat) (s : State) : (takePayload off n s).srcOff = s.srcOff := rfl
@[simp] theorem takePayload_chunkLen (off n : Nat) (s : State) : (takePayload off n s).chunkLen = s.chunkLen := rfl
@[simp] theorem takePayload_op (off n : Nat) (s : State) : (takePayload off n s).op = s.op := rfl
@[simp] theorem takePayload_addr (off n : Nat) (s : State) : (takePayload off n s).addr = s.addr := rfl
@[simp] theorem takePayload_len (off n : Nat) (s : State) : (takePayload off n s).len = s.len := rfl
@[simp] theorem takePayload_value (off n : Nat) (s : State) : (takePayload off n s).value = s.value := rfl
@[simp] theorem takePayload_tx (off n : Nat) (s : State) : (takePayload off n s).tx = s.tx := rfl
@[simp] theorem takePayload_count (off n : Nat) (s : State) : (takePayload off n s).count = s.count := rfl
@[simp] theorem takePayload_window (off n : Nat) (s : State) : (takePayload off n s).window = s.window := rfl
@[simp] theorem takePayload_trace (off n : Nat) (s : State) : (takePayload off n s).trace = s.trace := rfl
@[simp] theorem takePayload_src (off n : Nat) (s : State) : (takePayload off n s).src = s.src := rfl
@[simp] theorem takePayload_dst (off n : Nat) (s : State) : (takePayload off n s).dst = s.dst := rfl
@[simp] theorem takePayload_response (off n : Nat) (s : State) : (takePayload off n s).response = s.response := rfl
@[simp] theorem takePayload_loaded (off n : Nat) (s : State) : (takePayload off n s).loaded = s.loaded := rfl
@[simp] theorem takePayload_agenda (off n : Nat) (s : State) : (takePayload off n s).agenda = s.agenda := rfl
@[simp] theorem takePayload_resetPending (off n : Nat) (s : State) : (takePayload off n s).resetPending = s.resetPending := rfl
@[simp] theorem takePayload_device (off n : Nat) (s : State) : (takePayload off n s).device = s.device := rfl
@[simp] theorem takePayload_env (off n : Nat) (s : State) : (takePayload off n s).env = s.env := rfl
@[simp] theorem takePayload_replies (off n : Nat) (s : State) : (takePayload off n s).replies = s.replies := rfl
@[simp] theorem takePayload_params (off n : Nat) (s : State) : (takePayload off n s).params = s.params := rfl

/-! ### raiseFatal -/

@[simp] theorem raiseFatal_mode (c : Cause) (s : State) : (raiseFatal c s).mode = s.mode := rfl
@[simp] theorem raiseFatal_ctl (c : Cause) (s : State) : (raiseFatal c s).ctl = .halted := rfl
@[simp] theorem raiseFatal_rest (c : Cause) (s : State) : (raiseFatal c s).rest = [] := rfl
@[simp] theorem raiseFatal_rx (c : Cause) (s : State) : (raiseFatal c s).rx = s.rx := rfl
@[simp] theorem raiseFatal_cursor (c : Cause) (s : State) : (raiseFatal c s).cursor = s.cursor := rfl
@[simp] theorem raiseFatal_remaining (c : Cause) (s : State) : (raiseFatal c s).remaining = s.remaining := rfl
@[simp] theorem raiseFatal_srcOff (c : Cause) (s : State) : (raiseFatal c s).srcOff = s.srcOff := rfl
@[simp] theorem raiseFatal_chunkLen (c : Cause) (s : State) : (raiseFatal c s).chunkLen = s.chunkLen := rfl
@[simp] theorem raiseFatal_op (c : Cause) (s : State) : (raiseFatal c s).op = s.op := rfl
@[simp] theorem raiseFatal_addr (c : Cause) (s : State) : (raiseFatal c s).addr = s.addr := rfl
@[simp] theorem raiseFatal_len (c : Cause) (s : State) : (raiseFatal c s).len = s.len := rfl
@[simp] theorem raiseFatal_value (c : Cause) (s : State) : (raiseFatal c s).value = s.value := rfl
@[simp] theorem raiseFatal_tx (c : Cause) (s : State) : (raiseFatal c s).tx = s.tx := rfl
@[simp] theorem raiseFatal_count (c : Cause) (s : State) : (raiseFatal c s).count = s.count := rfl
@[simp] theorem raiseFatal_window (c : Cause) (s : State) : (raiseFatal c s).window = s.window := rfl
@[simp] theorem raiseFatal_trace (c : Cause) (s : State) : (raiseFatal c s).trace = s.trace := rfl
@[simp] theorem raiseFatal_src (c : Cause) (s : State) : (raiseFatal c s).src = s.src := rfl
@[simp] theorem raiseFatal_dst (c : Cause) (s : State) : (raiseFatal c s).dst = s.dst := rfl
@[simp] theorem raiseFatal_response (c : Cause) (s : State) : (raiseFatal c s).response = .fault c := rfl
@[simp] theorem raiseFatal_loaded (c : Cause) (s : State) : (raiseFatal c s).loaded = s.loaded := rfl
@[simp] theorem raiseFatal_agenda (c : Cause) (s : State) : (raiseFatal c s).agenda = s.agenda := rfl
@[simp] theorem raiseFatal_resetPending (c : Cause) (s : State) : (raiseFatal c s).resetPending = s.resetPending := rfl
@[simp] theorem raiseFatal_device (c : Cause) (s : State) : (raiseFatal c s).device = s.device := rfl
@[simp] theorem raiseFatal_env (c : Cause) (s : State) : (raiseFatal c s).env = s.env := rfl
@[simp] theorem raiseFatal_replies (c : Cause) (s : State) : (raiseFatal c s).replies = s.replies := rfl
@[simp] theorem raiseFatal_fresh (c : Cause) (s : State) : (raiseFatal c s).fresh = s.fresh := rfl
@[simp] theorem raiseFatal_params (c : Cause) (s : State) : (raiseFatal c s).params = s.params := rfl

/-! ### hardwareReset -/

@[simp] theorem hardwareReset_mode (s : State) : (hardwareReset s).mode = .singleWire := rfl
@[simp] theorem hardwareReset_ctl (s : State) : (hardwareReset s).ctl = .idle := rfl
@[simp] theorem hardwareReset_rest (s : State) : (hardwareReset s).rest = [] := rfl
@[simp] theorem hardwareReset_rx (s : State) : (hardwareReset s).rx = [] := rfl
@[simp] theorem hardwareReset_cursor (s : State) : (hardwareReset s).cursor = 0 := rfl
@[simp] theorem hardwareReset_remaining (s : State) : (hardwareReset s).remaining = 0 := rfl
@[simp] theorem hardwareReset_srcOff (s : State) : (hardwareReset s).srcOff = 0 := rfl
@[simp] theorem hardwareReset_chunkLen (s : State) : (hardwareReset s).chunkLen = 1 := rfl
@[simp] theorem hardwareReset_op (s : State) : (hardwareReset s).op = 0 := rfl
@[simp] theorem hardwareReset_addr (s : State) : (hardwareReset s).addr = 0 := rfl
@[simp] theorem hardwareReset_len (s : State) : (hardwareReset s).len = 0 := rfl
@[simp] theorem hardwareReset_value (s : State) : (hardwareReset s).value = 0 := rfl
@[simp] theorem hardwareReset_tx (s : State) : (hardwareReset s).tx = [] := rfl
@[simp] theorem hardwareReset_count (s : State) : (hardwareReset s).count = 0 := rfl
@[simp] theorem hardwareReset_window (s : State) : (hardwareReset s).window = none := rfl
@[simp] theorem hardwareReset_trace (s : State) : (hardwareReset s).trace = [] := rfl
@[simp] theorem hardwareReset_src (s : State) : (hardwareReset s).src = s.src := rfl
@[simp] theorem hardwareReset_dst (s : State) : (hardwareReset s).dst = s.dst := rfl
@[simp] theorem hardwareReset_response (s : State) : (hardwareReset s).response = .nothing := rfl
@[simp] theorem hardwareReset_loaded (s : State) : (hardwareReset s).loaded = none := rfl
@[simp] theorem hardwareReset_agenda (s : State) : (hardwareReset s).agenda = s.agenda := rfl
@[simp] theorem hardwareReset_resetPending (s : State) : (hardwareReset s).resetPending = false := rfl
@[simp] theorem hardwareReset_device (s : State) : (hardwareReset s).device = s.device := rfl
@[simp] theorem hardwareReset_env (s : State) : (hardwareReset s).env = s.env := rfl
@[simp] theorem hardwareReset_replies (s : State) : (hardwareReset s).replies = s.replies := rfl
@[simp] theorem hardwareReset_fresh (s : State) : (hardwareReset s).fresh = s.fresh := rfl
@[simp] theorem hardwareReset_params (s : State) : (hardwareReset s).params = s.params := rfl

/-! ### draw -/

@[simp] theorem draw_mode (n : Nat) (s : State) : ((s.draw n).2).mode = s.mode := rfl
@[simp] theorem draw_ctl (n : Nat) (s : State) : ((s.draw n).2).ctl = s.ctl := rfl
@[simp] theorem draw_rest (n : Nat) (s : State) : ((s.draw n).2).rest = s.rest := rfl
@[simp] theorem draw_rx (n : Nat) (s : State) : ((s.draw n).2).rx = s.rx := rfl
@[simp] theorem draw_cursor (n : Nat) (s : State) : ((s.draw n).2).cursor = s.cursor := rfl
@[simp] theorem draw_remaining (n : Nat) (s : State) : ((s.draw n).2).remaining = s.remaining := rfl
@[simp] theorem draw_srcOff (n : Nat) (s : State) : ((s.draw n).2).srcOff = s.srcOff := rfl
@[simp] theorem draw_chunkLen (n : Nat) (s : State) : ((s.draw n).2).chunkLen = s.chunkLen := rfl
@[simp] theorem draw_op (n : Nat) (s : State) : ((s.draw n).2).op = s.op := rfl
@[simp] theorem draw_addr (n : Nat) (s : State) : ((s.draw n).2).addr = s.addr := rfl
@[simp] theorem draw_len (n : Nat) (s : State) : ((s.draw n).2).len = s.len := rfl
@[simp] theorem draw_value (n : Nat) (s : State) : ((s.draw n).2).value = s.value := rfl
@[simp] theorem draw_tx (n : Nat) (s : State) : ((s.draw n).2).tx = s.tx := rfl
@[simp] theorem draw_count (n : Nat) (s : State) : ((s.draw n).2).count = s.count := rfl
@[simp] theorem draw_window (n : Nat) (s : State) : ((s.draw n).2).window = s.window := rfl
@[simp] theorem draw_trace (n : Nat) (s : State) : ((s.draw n).2).trace = s.trace := rfl
@[simp] theorem draw_src (n : Nat) (s : State) : ((s.draw n).2).src = s.src := rfl
@[simp] theorem draw_dst (n : Nat) (s : State) : ((s.draw n).2).dst = s.dst := rfl
@[simp] theorem draw_response (n : Nat) (s : State) : ((s.draw n).2).response = s.response := rfl
@[simp] theorem draw_loaded (n : Nat) (s : State) : ((s.draw n).2).loaded = s.loaded := rfl
@[simp] theorem draw_agenda (n : Nat) (s : State) : ((s.draw n).2).agenda = s.agenda := rfl
@[simp] theorem draw_resetPending (n : Nat) (s : State) : ((s.draw n).2).resetPending = s.resetPending := rfl
@[simp] theorem draw_device (n : Nat) (s : State) : ((s.draw n).2).device = s.device := rfl
@[simp] theorem draw_env (n : Nat) (s : State) : ((s.draw n).2).env = s.env := rfl
@[simp] theorem draw_replies (n : Nat) (s : State) : ((s.draw n).2).replies = (drawBytes n s.replies s.fresh).2.1 := rfl
@[simp] theorem draw_fresh (n : Nat) (s : State) : ((s.draw n).2).fresh = (drawBytes n s.replies s.fresh).2.2 := rfl
@[simp] theorem draw_params (n : Nat) (s : State) : ((s.draw n).2).params = s.params := rfl

/-! ### freeDevice -/

@[simp] theorem freeDevice_mode (s : State) : (freeDevice s).mode = s.mode := rfl
@[simp] theorem freeDevice_ctl (s : State) : (freeDevice s).ctl = s.ctl := rfl
@[simp] theorem freeDevice_rest (s : State) : (freeDevice s).rest = s.rest := rfl
@[simp] theorem freeDevice_rx (s : State) : (freeDevice s).rx = s.rx := rfl
@[simp] theorem freeDevice_cursor (s : State) : (freeDevice s).cursor = s.cursor := rfl
@[simp] theorem freeDevice_remaining (s : State) : (freeDevice s).remaining = s.remaining := rfl
@[simp] theorem freeDevice_srcOff (s : State) : (freeDevice s).srcOff = s.srcOff := rfl
@[simp] theorem freeDevice_chunkLen (s : State) : (freeDevice s).chunkLen = s.chunkLen := rfl
@[simp] theorem freeDevice_op (s : State) : (freeDevice s).op = s.op := rfl
@[simp] theorem freeDevice_addr (s : State) : (freeDevice s).addr = s.addr := rfl
@[simp] theorem freeDevice_len (s : State) : (freeDevice s).len = s.len := rfl
@[simp] theorem freeDevice_value (s : State) : (freeDevice s).value = s.value := rfl
@[simp] theorem freeDevice_tx (s : State) : (freeDevice s).tx = s.tx := rfl
@[simp] theorem freeDevice_count (s : State) : (freeDevice s).count = s.count := rfl
@[simp] theorem freeDevice_window (s : State) : (freeDevice s).window = s.window := rfl
@[simp] theorem freeDevice_trace (s : State) : (freeDevice s).trace = s.trace := rfl
@[simp] theorem freeDevice_src (s : State) : (freeDevice s).src = s.src := rfl
@[simp] theorem freeDevice_dst (s : State) : (freeDevice s).dst = s.dst := rfl
@[simp] theorem freeDevice_response (s : State) : (freeDevice s).response = s.response := rfl
@[simp] theorem freeDevice_loaded (s : State) : (freeDevice s).loaded = s.loaded := rfl
@[simp] theorem freeDevice_agenda (s : State) : (freeDevice s).agenda = s.agenda := rfl
@[simp] theorem freeDevice_resetPending (s : State) : (freeDevice s).resetPending = s.resetPending := rfl
@[simp] theorem freeDevice_env (s : State) : (freeDevice s).env = s.env := rfl
@[simp] theorem freeDevice_replies (s : State) : (freeDevice s).replies = s.replies := rfl
@[simp] theorem freeDevice_fresh (s : State) : (freeDevice s).fresh = s.fresh + 2 := rfl
@[simp] theorem freeDevice_params (s : State) : (freeDevice s).params = s.params := rfl

/-! ### eraseRegion -/

@[simp] theorem eraseRegion_mode (a size : Nat) (s : State) : (eraseRegion a size s).mode = s.mode := rfl
@[simp] theorem eraseRegion_ctl (a size : Nat) (s : State) : (eraseRegion a size s).ctl = s.ctl := rfl
@[simp] theorem eraseRegion_rest (a size : Nat) (s : State) : (eraseRegion a size s).rest = s.rest := rfl
@[simp] theorem eraseRegion_rx (a size : Nat) (s : State) : (eraseRegion a size s).rx = s.rx := rfl
@[simp] theorem eraseRegion_cursor (a size : Nat) (s : State) : (eraseRegion a size s).cursor = s.cursor := rfl
@[simp] theorem eraseRegion_remaining (a size : Nat) (s : State) : (eraseRegion a size s).remaining = s.remaining := rfl
@[simp] theorem eraseRegion_srcOff (a size : Nat) (s : State) : (eraseRegion a size s).srcOff = s.srcOff := rfl
@[simp] theorem eraseRegion_chunkLen (a size : Nat) (s : State) : (eraseRegion a size s).chunkLen = s.chunkLen := rfl
@[simp] theorem eraseRegion_op (a size : Nat) (s : State) : (eraseRegion a size s).op = s.op := rfl
@[simp] theorem eraseRegion_addr (a size : Nat) (s : State) : (eraseRegion a size s).addr = s.addr := rfl
@[simp] theorem eraseRegion_len (a size : Nat) (s : State) : (eraseRegion a size s).len = s.len := rfl
@[simp] theorem eraseRegion_value (a size : Nat) (s : State) : (eraseRegion a size s).value = s.value := rfl
@[simp] theorem eraseRegion_tx (a size : Nat) (s : State) : (eraseRegion a size s).tx = s.tx := rfl
@[simp] theorem eraseRegion_count (a size : Nat) (s : State) : (eraseRegion a size s).count = s.count := rfl
@[simp] theorem eraseRegion_window (a size : Nat) (s : State) : (eraseRegion a size s).window = s.window := rfl
@[simp] theorem eraseRegion_trace (a size : Nat) (s : State) : (eraseRegion a size s).trace = s.trace := rfl
@[simp] theorem eraseRegion_src (a size : Nat) (s : State) : (eraseRegion a size s).src = s.src := rfl
@[simp] theorem eraseRegion_dst (a size : Nat) (s : State) : (eraseRegion a size s).dst = s.dst := rfl
@[simp] theorem eraseRegion_response (a size : Nat) (s : State) : (eraseRegion a size s).response = s.response := rfl
@[simp] theorem eraseRegion_loaded (a size : Nat) (s : State) : (eraseRegion a size s).loaded = s.loaded := rfl
@[simp] theorem eraseRegion_agenda (a size : Nat) (s : State) : (eraseRegion a size s).agenda = s.agenda := rfl
@[simp] theorem eraseRegion_resetPending (a size : Nat) (s : State) : (eraseRegion a size s).resetPending = s.resetPending := rfl
@[simp] theorem eraseRegion_env (a size : Nat) (s : State) : (eraseRegion a size s).env = s.env := rfl
@[simp] theorem eraseRegion_replies (a size : Nat) (s : State) : (eraseRegion a size s).replies = s.replies := rfl
@[simp] theorem eraseRegion_fresh (a size : Nat) (s : State) : (eraseRegion a size s).fresh = s.fresh := rfl
@[simp] theorem eraseRegion_params (a size : Nat) (s : State) : (eraseRegion a size s).params = s.params := rfl

/-! ### placeBusWord -/

@[simp] theorem placeBusWord_mode (w : BusWord) (s : State) : (placeBusWord w s).mode = s.mode := rfl
@[simp] theorem placeBusWord_ctl (w : BusWord) (s : State) : (placeBusWord w s).ctl = .busy := rfl
@[simp] theorem placeBusWord_rest (w : BusWord) (s : State) : (placeBusWord w s).rest = [.issue { word := w, tx := [0], count := 1 }] := rfl
@[simp] theorem placeBusWord_rx (w : BusWord) (s : State) : (placeBusWord w s).rx = s.rx := rfl
@[simp] theorem placeBusWord_cursor (w : BusWord) (s : State) : (placeBusWord w s).cursor = s.cursor := rfl
@[simp] theorem placeBusWord_remaining (w : BusWord) (s : State) : (placeBusWord w s).remaining = s.remaining := rfl
@[simp] theorem placeBusWord_srcOff (w : BusWord) (s : State) : (placeBusWord w s).srcOff = s.srcOff := rfl
@[simp] theorem placeBusWord_chunkLen (w : BusWord) (s : State) : (placeBusWord w s).chunkLen = s.chunkLen := rfl
@[simp] theorem placeBusWord_op (w : BusWord) (s : State) : (placeBusWord w s).op = s.op := rfl
@[simp] theorem placeBusWord_addr (w : BusWord) (s : State) : (placeBusWord w s).addr = s.addr := rfl
@[simp] theorem placeBusWord_len (w : BusWord) (s : State) : (placeBusWord w s).len = s.len := rfl
@[simp] theorem placeBusWord_value (w : BusWord) (s : State) : (placeBusWord w s).value = s.value := rfl
@[simp] theorem placeBusWord_tx (w : BusWord) (s : State) : (placeBusWord w s).tx = s.tx := rfl
@[simp] theorem placeBusWord_count (w : BusWord) (s : State) : (placeBusWord w s).count = s.count := rfl
@[simp] theorem placeBusWord_window (w : BusWord) (s : State) : (placeBusWord w s).window = s.window := rfl
@[simp] theorem placeBusWord_trace (w : BusWord) (s : State) : (placeBusWord w s).trace = s.trace := rfl
@[simp] theorem placeBusWord_src (w : BusWord) (s : State) : (placeBusWord w s).src = s.src := rfl
@[simp] theorem placeBusWord_dst (w : BusWord) (s : State) : (placeBusWord w s).dst = s.dst := rfl
@[simp] theorem placeBusWord_response (w : BusWord) (s : State) : (placeBusWord w s).response = s.response := rfl
@[simp] theorem placeBusWord_loaded (w : BusWord) (s : State) : (placeBusWord w s).loaded = s.loaded := rfl
@[simp] theorem placeBusWord_agenda (w : BusWord) (s : State) : (placeBusWord w s).agenda = s.agenda := rfl
@[simp] theorem placeBusWord_resetPending (w : BusWord) (s : State) : (placeBusWord w s).resetPending = false := rfl
@[simp] theorem placeBusWord_device (w : BusWord) (s : State) : (placeBusWord w s).device = s.device := rfl
@[simp] theorem placeBusWord_env (w : BusWord) (s : State) : (placeBusWord w s).env = s.env := rfl
@[simp] theorem placeBusWord_replies (w : BusWord) (s : State) : (placeBusWord w s).replies = s.replies := rfl
@[simp] theorem placeBusWord_fresh (w : BusWord) (s : State) : (placeBusWord w s).fresh = s.fresh := rfl
@[simp] theorem placeBusWord_params (w : BusWord) (s : State) : (placeBusWord w s).params = s.params := rfl

/-! ### placeRequest -/

@[simp] theorem placeRequest_mode (w : HostWord) (s : State) : (placeRequest w s).mode = s.mode := rfl
@[simp] theorem placeRequest_ctl (w : HostWord) (s : State) : (placeRequest w s).ctl = .idle := rfl
@[simp] theorem placeRequest_rest (w : HostWord) (s : State) : (placeRequest w s).rest = [] := rfl
@[simp] theorem placeRequest_rx (w : HostWord) (s : State) : (placeRequest w s).rx = s.rx := rfl
@[simp] theorem placeRequest_cursor (w : HostWord) (s : State) : (placeRequest w s).cursor = s.cursor := rfl
@[simp] theorem placeRequest_remaining (w : HostWord) (s : State) : (placeRequest w s).remaining = s.remaining := rfl
@[simp] theorem placeRequest_srcOff (w : HostWord) (s : State) : (placeRequest w s).srcOff = s.srcOff := rfl
@[simp] theorem placeRequest_chunkLen (w : HostWord) (s : State) : (placeRequest w s).chunkLen = s.chunkLen := rfl
@[simp] theorem placeRequest_op (w : HostWord) (s : State) : (placeRequest w s).op = s.op := rfl
@[simp] theorem placeRequest_addr (w : HostWord) (s : State) : (placeRequest w s).addr = s.addr := rfl
@[simp] theorem placeRequest_len (w : HostWord) (s : State) : (placeRequest w s).len = s.len := rfl
@[simp] theorem placeRequest_value (w : HostWord) (s : State) : (placeRequest w s).value = s.value := rfl
@[simp] theorem placeRequest_tx (w : HostWord) (s : State) : (placeRequest w s).tx = s.tx := rfl
@[simp] theorem placeRequest_count (w : HostWord) (s : State) : (placeRequest w s).count = s.count := rfl
@[simp] theorem placeRequest_window (w : HostWord) (s : State) : (placeRequest w s).window = s.window := rfl
@[simp] theorem placeRequest_trace (w : HostWord) (s : State) : (placeRequest w s).trace = s.trace := rfl
@[simp] theorem placeRequest_src (w : HostWord) (s : State) : (placeRequest w s).src = s.src := rfl
@[simp] theorem placeRequest_dst (w : HostWord) (s : State) : (placeRequest w s).dst = s.dst := rfl
@[simp] theorem placeRequest_response (w : HostWord) (s : State) : (placeRequest w s).response = s.response := rfl
@[simp] theorem placeRequest_loaded (w : HostWord) (s : State) : (placeRequest w s).loaded = s.loaded := rfl
@[simp] theorem placeRequest_agenda (w : HostWord) (s : State) : (placeRequest w s).agenda = .request { word := w, src := s.src } :: s.agenda := rfl
@[simp] theorem placeRequest_resetPending (w : HostWord) (s : State) : (placeRequest w s).resetPending = false := rfl
@[simp] theorem placeRequest_device (w : HostWord) (s : State) : (placeRequest w s).device = s.device := rfl
@[simp] theorem placeRequest_env (w : HostWord) (s : State) : (placeRequest w s).env = s.env := rfl
@[simp] theorem placeRequest_replies (w : HostWord) (s : State) : (placeRequest w s).replies = s.replies := rfl
@[simp] theorem placeRequest_fresh (w : HostWord) (s : State) : (placeRequest w s).fresh = s.fresh := rfl
@[simp] theorem placeRequest_params (w : HostWord) (s : State) : (placeRequest w s).params = s.params := rfl

/-! ### accept -/

@[simp] theorem accept_ctl (code : BitVec 5) (o : Operands) (body : List Stmt) (s : State) : (accept code o body s).ctl = .busy := rfl
@[simp] theorem accept_rest (code : BitVec 5) (o : Operands) (body : List Stmt) (s : State) : (accept code o body s).rest = body := rfl
@[simp] theorem accept_response (code : BitVec 5) (o : Operands) (body : List Stmt) (s : State) : (accept code o body s).response = .nothing := rfl

/-! ### latch and accept: only the latches the operation takes are written (R25) -/

@[simp] theorem latch_op (code : BitVec 5) (o : Operands) (s : State) : (latch code o s).op = code := by cases o <;> rfl

@[simp] theorem latch_mode (code : BitVec 5) (o : Operands) (s : State) : (latch code o s).mode = s.mode := by cases o <;> rfl
@[simp] theorem latch_ctl (code : BitVec 5) (o : Operands) (s : State) : (latch code o s).ctl = s.ctl := by cases o <;> rfl
@[simp] theorem latch_rest (code : BitVec 5) (o : Operands) (s : State) : (latch code o s).rest = s.rest := by cases o <;> rfl
@[simp] theorem latch_rx (code : BitVec 5) (o : Operands) (s : State) : (latch code o s).rx = s.rx := by cases o <;> rfl
@[simp] theorem latch_cursor (code : BitVec 5) (o : Operands) (s : State) : (latch code o s).cursor = s.cursor := by cases o <;> rfl
@[simp] theorem latch_remaining (code : BitVec 5) (o : Operands) (s : State) : (latch code o s).remaining = s.remaining := by cases o <;> rfl
@[simp] theorem latch_srcOff (code : BitVec 5) (o : Operands) (s : State) : (latch code o s).srcOff = s.srcOff := by cases o <;> rfl
@[simp] theorem latch_chunkLen (code : BitVec 5) (o : Operands) (s : State) : (latch code o s).chunkLen = s.chunkLen := by cases o <;> rfl
@[simp] theorem latch_tx (code : BitVec 5) (o : Operands) (s : State) : (latch code o s).tx = s.tx := by cases o <;> rfl
@[simp] theorem latch_count (code : BitVec 5) (o : Operands) (s : State) : (latch code o s).count = s.count := by cases o <;> rfl
@[simp] theorem latch_window (code : BitVec 5) (o : Operands) (s : State) : (latch code o s).window = s.window := by cases o <;> rfl
@[simp] theorem latch_trace (code : BitVec 5) (o : Operands) (s : State) : (latch code o s).trace = s.trace := by cases o <;> rfl
@[simp] theorem latch_src (code : BitVec 5) (o : Operands) (s : State) : (latch code o s).src = s.src := by cases o <;> rfl
@[simp] theorem latch_dst (code : BitVec 5) (o : Operands) (s : State) : (latch code o s).dst = s.dst := by cases o <;> rfl
@[simp] theorem latch_response (code : BitVec 5) (o : Operands) (s : State) : (latch code o s).response = s.response := by cases o <;> rfl
@[simp] theorem latch_loaded (code : BitVec 5) (o : Operands) (s : State) : (latch code o s).loaded = s.loaded := by cases o <;> rfl
@[simp] theorem latch_agenda (code : BitVec 5) (o : Operands) (s : State) : (latch code o s).agenda = s.agenda := by cases o <;> rfl
@[simp] theorem latch_resetPending (code : BitVec 5) (o : Operands) (s : State) : (latch code o s).resetPending = s.resetPending := by cases o <;> rfl
@[simp] theorem latch_device (code : BitVec 5) (o : Operands) (s : State) : (latch code o s).device = s.device := by cases o <;> rfl
@[simp] theorem latch_env (code : BitVec 5) (o : Operands) (s : State) : (latch code o s).env = s.env := by cases o <;> rfl
@[simp] theorem latch_replies (code : BitVec 5) (o : Operands) (s : State) : (latch code o s).replies = s.replies := by cases o <;> rfl
@[simp] theorem latch_fresh (code : BitVec 5) (o : Operands) (s : State) : (latch code o s).fresh = s.fresh := by cases o <;> rfl
@[simp] theorem latch_params (code : BitVec 5) (o : Operands) (s : State) : (latch code o s).params = s.params := by cases o <;> rfl

@[simp] theorem accept_op (code : BitVec 5) (o : Operands) (body : List Stmt) (s : State) : (accept code o body s).op = code :=
  latch_op code o s
@[simp] theorem accept_mode (code : BitVec 5) (o : Operands) (body : List Stmt) (s : State) :
    (accept code o body s).mode = s.mode := latch_mode code o s
@[simp] theorem accept_rx (code : BitVec 5) (o : Operands) (body : List Stmt) (s : State) :
    (accept code o body s).rx = s.rx := latch_rx code o s
@[simp] theorem accept_cursor (code : BitVec 5) (o : Operands) (body : List Stmt) (s : State) :
    (accept code o body s).cursor = s.cursor := latch_cursor code o s
@[simp] theorem accept_remaining (code : BitVec 5) (o : Operands) (body : List Stmt) (s : State) :
    (accept code o body s).remaining = s.remaining := latch_remaining code o s
@[simp] theorem accept_srcOff (code : BitVec 5) (o : Operands) (body : List Stmt) (s : State) :
    (accept code o body s).srcOff = s.srcOff := latch_srcOff code o s
@[simp] theorem accept_chunkLen (code : BitVec 5) (o : Operands) (body : List Stmt) (s : State) :
    (accept code o body s).chunkLen = s.chunkLen := latch_chunkLen code o s
@[simp] theorem accept_tx (code : BitVec 5) (o : Operands) (body : List Stmt) (s : State) :
    (accept code o body s).tx = s.tx := latch_tx code o s
@[simp] theorem accept_count (code : BitVec 5) (o : Operands) (body : List Stmt) (s : State) :
    (accept code o body s).count = s.count := latch_count code o s
@[simp] theorem accept_window (code : BitVec 5) (o : Operands) (body : List Stmt) (s : State) :
    (accept code o body s).window = s.window := latch_window code o s
@[simp] theorem accept_trace (code : BitVec 5) (o : Operands) (body : List Stmt) (s : State) :
    (accept code o body s).trace = s.trace := latch_trace code o s
@[simp] theorem accept_src (code : BitVec 5) (o : Operands) (body : List Stmt) (s : State) :
    (accept code o body s).src = s.src := latch_src code o s
@[simp] theorem accept_dst (code : BitVec 5) (o : Operands) (body : List Stmt) (s : State) :
    (accept code o body s).dst = s.dst := latch_dst code o s
@[simp] theorem accept_loaded (code : BitVec 5) (o : Operands) (body : List Stmt) (s : State) :
    (accept code o body s).loaded = s.loaded := latch_loaded code o s
@[simp] theorem accept_agenda (code : BitVec 5) (o : Operands) (body : List Stmt) (s : State) :
    (accept code o body s).agenda = s.agenda := latch_agenda code o s
@[simp] theorem accept_resetPending (code : BitVec 5) (o : Operands) (body : List Stmt) (s : State) :
    (accept code o body s).resetPending = s.resetPending := latch_resetPending code o s
@[simp] theorem accept_device (code : BitVec 5) (o : Operands) (body : List Stmt) (s : State) :
    (accept code o body s).device = s.device := latch_device code o s
@[simp] theorem accept_env (code : BitVec 5) (o : Operands) (body : List Stmt) (s : State) :
    (accept code o body s).env = s.env := latch_env code o s
@[simp] theorem accept_replies (code : BitVec 5) (o : Operands) (body : List Stmt) (s : State) :
    (accept code o body s).replies = s.replies := latch_replies code o s
@[simp] theorem accept_fresh (code : BitVec 5) (o : Operands) (body : List Stmt) (s : State) :
    (accept code o body s).fresh = s.fresh := latch_fresh code o s
@[simp] theorem accept_params (code : BitVec 5) (o : Operands) (body : List Stmt) (s : State) :
    (accept code o body s).params = s.params := latch_params code o s

/-! ### programBytes: only the device and the numbering of free values change -/

@[simp] theorem programByte_mode (a : Nat) (b : Byte) (s : State) : (programByte a b s).mode = s.mode := by
  unfold programByte; split <;> rfl
@[simp] theorem programBytes_mode (a : Nat) (bs : List Byte) (s : State) : (programBytes a bs s).mode = s.mode := by
  induction bs generalizing a s with
  | nil => rfl
  | cons b bs ih => simp [programBytes, ih]
@[simp] theorem programByte_ctl (a : Nat) (b : Byte) (s : State) : (programByte a b s).ctl = s.ctl := by
  unfold programByte; split <;> rfl
@[simp] theorem programBytes_ctl (a : Nat) (bs : List Byte) (s : State) : (programBytes a bs s).ctl = s.ctl := by
  induction bs generalizing a s with
  | nil => rfl
  | cons b bs ih => simp [programBytes, ih]
@[simp] theorem programByte_rest (a : Nat) (b : Byte) (s : State) : (programByte a b s).rest = s.rest := by
  unfold programByte; split <;> rfl
@[simp] theorem programBytes_rest (a : Nat) (bs : List Byte) (s : State) : (programBytes a bs s).rest = s.rest := by
  induction bs generalizing a s with
  | nil => rfl
  | cons b bs ih => simp [programBytes, ih]
@[simp] theorem programByte_rx (a : Nat) (b : Byte) (s : State) : (programByte a b s).rx = s.rx := by
  unfold programByte; split <;> rfl
@[simp] theorem programBytes_rx (a : Nat) (bs : List Byte) (s : State) : (programBytes a bs s).rx = s.rx := by
  induction bs generalizing a s with
  | nil => rfl
  | cons b bs ih => simp [programBytes, ih]
@[simp] theorem programByte_cursor (a : Nat) (b : Byte) (s : State) : (programByte a b s).cursor = s.cursor := by
  unfold programByte; split <;> rfl
@[simp] theorem programBytes_cursor (a : Nat) (bs : List Byte) (s : State) : (programBytes a bs s).cursor = s.cursor := by
  induction bs generalizing a s with
  | nil => rfl
  | cons b bs ih => simp [programBytes, ih]
@[simp] theorem programByte_remaining (a : Nat) (b : Byte) (s : State) : (programByte a b s).remaining = s.remaining := by
  unfold programByte; split <;> rfl
@[simp] theorem programBytes_remaining (a : Nat) (bs : List Byte) (s : State) : (programBytes a bs s).remaining = s.remaining := by
  induction bs generalizing a s with
  | nil => rfl
  | cons b bs ih => simp [programBytes, ih]
@[simp] theorem programByte_srcOff (a : Nat) (b : Byte) (s : State) : (programByte a b s).srcOff = s.srcOff := by
  unfold programByte; split <;> rfl
@[simp] theorem programBytes_srcOff (a : Nat) (bs : List Byte) (s : State) : (programBytes a bs s).srcOff = s.srcOff := by
  induction bs generalizing a s with
  | nil => rfl
  | cons b bs ih => simp [programBytes, ih]
@[simp] theorem programByte_chunkLen (a : Nat) (b : Byte) (s : State) : (programByte a b s).chunkLen = s.chunkLen := by
  unfold programByte; split <;> rfl
@[simp] theorem programBytes_chunkLen (a : Nat) (bs : List Byte) (s : State) : (programBytes a bs s).chunkLen = s.chunkLen := by
  induction bs generalizing a s with
  | nil => rfl
  | cons b bs ih => simp [programBytes, ih]
@[simp] theorem programByte_op (a : Nat) (b : Byte) (s : State) : (programByte a b s).op = s.op := by
  unfold programByte; split <;> rfl
@[simp] theorem programBytes_op (a : Nat) (bs : List Byte) (s : State) : (programBytes a bs s).op = s.op := by
  induction bs generalizing a s with
  | nil => rfl
  | cons b bs ih => simp [programBytes, ih]
@[simp] theorem programByte_addr (a : Nat) (b : Byte) (s : State) : (programByte a b s).addr = s.addr := by
  unfold programByte; split <;> rfl
@[simp] theorem programBytes_addr (a : Nat) (bs : List Byte) (s : State) : (programBytes a bs s).addr = s.addr := by
  induction bs generalizing a s with
  | nil => rfl
  | cons b bs ih => simp [programBytes, ih]
@[simp] theorem programByte_len (a : Nat) (b : Byte) (s : State) : (programByte a b s).len = s.len := by
  unfold programByte; split <;> rfl
@[simp] theorem programBytes_len (a : Nat) (bs : List Byte) (s : State) : (programBytes a bs s).len = s.len := by
  induction bs generalizing a s with
  | nil => rfl
  | cons b bs ih => simp [programBytes, ih]
@[simp] theorem programByte_value (a : Nat) (b : Byte) (s : State) : (programByte a b s).value = s.value := by
  unfold programByte; split <;> rfl
@[simp] theorem programBytes_value (a : Nat) (bs : List Byte) (s : State) : (programBytes a bs s).value = s.value := by
  induction bs generalizing a s with
  | nil => rfl
  | cons b bs ih => simp [programBytes, ih]
@[simp] theorem programByte_tx (a : Nat) (b : Byte) (s : State) : (programByte a b s).tx = s.tx := by
  unfold programByte; split <;> rfl
@[simp] theorem programBytes_tx (a : Nat) (bs : List Byte) (s : State) : (programBytes a bs s).tx = s.tx := by
  induction bs generalizing a s with
  | nil => rfl
  | cons b bs ih => simp [programBytes, ih]
@[simp] theorem programByte_count (a : Nat) (b : Byte) (s : State) : (programByte a b s).count = s.count := by
  unfold programByte; split <;> rfl
@[simp] theorem programBytes_count (a : Nat) (bs : List Byte) (s : State) : (programBytes a bs s).count = s.count := by
  induction bs generalizing a s with
  | nil => rfl
  | cons b bs ih => simp [programBytes, ih]
@[simp] theorem programByte_window (a : Nat) (b : Byte) (s : State) : (programByte a b s).window = s.window := by
  unfold programByte; split <;> rfl
@[simp] theorem programBytes_window (a : Nat) (bs : List Byte) (s : State) : (programBytes a bs s).window = s.window := by
  induction bs generalizing a s with
  | nil => rfl
  | cons b bs ih => simp [programBytes, ih]
@[simp] theorem programByte_trace (a : Nat) (b : Byte) (s : State) : (programByte a b s).trace = s.trace := by
  unfold programByte; split <;> rfl
@[simp] theorem programBytes_trace (a : Nat) (bs : List Byte) (s : State) : (programBytes a bs s).trace = s.trace := by
  induction bs generalizing a s with
  | nil => rfl
  | cons b bs ih => simp [programBytes, ih]
@[simp] theorem programByte_src (a : Nat) (b : Byte) (s : State) : (programByte a b s).src = s.src := by
  unfold programByte; split <;> rfl
@[simp] theorem programBytes_src (a : Nat) (bs : List Byte) (s : State) : (programBytes a bs s).src = s.src := by
  induction bs generalizing a s with
  | nil => rfl
  | cons b bs ih => simp [programBytes, ih]
@[simp] theorem programByte_dst (a : Nat) (b : Byte) (s : State) : (programByte a b s).dst = s.dst := by
  unfold programByte; split <;> rfl
@[simp] theorem programBytes_dst (a : Nat) (bs : List Byte) (s : State) : (programBytes a bs s).dst = s.dst := by
  induction bs generalizing a s with
  | nil => rfl
  | cons b bs ih => simp [programBytes, ih]
@[simp] theorem programByte_response (a : Nat) (b : Byte) (s : State) : (programByte a b s).response = s.response := by
  unfold programByte; split <;> rfl
@[simp] theorem programBytes_response (a : Nat) (bs : List Byte) (s : State) : (programBytes a bs s).response = s.response := by
  induction bs generalizing a s with
  | nil => rfl
  | cons b bs ih => simp [programBytes, ih]
@[simp] theorem programByte_loaded (a : Nat) (b : Byte) (s : State) : (programByte a b s).loaded = s.loaded := by
  unfold programByte; split <;> rfl
@[simp] theorem programBytes_loaded (a : Nat) (bs : List Byte) (s : State) : (programBytes a bs s).loaded = s.loaded := by
  induction bs generalizing a s with
  | nil => rfl
  | cons b bs ih => simp [programBytes, ih]
@[simp] theorem programByte_agenda (a : Nat) (b : Byte) (s : State) : (programByte a b s).agenda = s.agenda := by
  unfold programByte; split <;> rfl
@[simp] theorem programBytes_agenda (a : Nat) (bs : List Byte) (s : State) : (programBytes a bs s).agenda = s.agenda := by
  induction bs generalizing a s with
  | nil => rfl
  | cons b bs ih => simp [programBytes, ih]
@[simp] theorem programByte_resetPending (a : Nat) (b : Byte) (s : State) : (programByte a b s).resetPending = s.resetPending := by
  unfold programByte; split <;> rfl
@[simp] theorem programBytes_resetPending (a : Nat) (bs : List Byte) (s : State) : (programBytes a bs s).resetPending = s.resetPending := by
  induction bs generalizing a s with
  | nil => rfl
  | cons b bs ih => simp [programBytes, ih]
@[simp] theorem programByte_env (a : Nat) (b : Byte) (s : State) : (programByte a b s).env = s.env := by
  unfold programByte; split <;> rfl
@[simp] theorem programBytes_env (a : Nat) (bs : List Byte) (s : State) : (programBytes a bs s).env = s.env := by
  induction bs generalizing a s with
  | nil => rfl
  | cons b bs ih => simp [programBytes, ih]
@[simp] theorem programByte_replies (a : Nat) (b : Byte) (s : State) : (programByte a b s).replies = s.replies := by
  unfold programByte; split <;> rfl
@[simp] theorem programBytes_replies (a : Nat) (bs : List Byte) (s : State) : (programBytes a bs s).replies = s.replies := by
  induction bs generalizing a s with
  | nil => rfl
  | cons b bs ih => simp [programBytes, ih]
@[simp] theorem programByte_params (a : Nat) (b : Byte) (s : State) : (programByte a b s).params = s.params := by
  unfold programByte; split <;> rfl
@[simp] theorem programBytes_params (a : Nat) (bs : List Byte) (s : State) : (programBytes a bs s).params = s.params := by
  induction bs generalizing a s with
  | nil => rfl
  | cons b bs ih => simp [programBytes, ih]

/-! ### The environment's part of a transport call -/

@[simp] theorem refEffect_mode (d : Descriptor) (tx : List Byte) (s : State) : (refEffect d tx s).mode = s.mode := by
  unfold refEffect; split <;> simp
@[simp] theorem refEffect_ctl (d : Descriptor) (tx : List Byte) (s : State) : (refEffect d tx s).ctl = s.ctl := by
  unfold refEffect; split <;> simp
@[simp] theorem refEffect_rest (d : Descriptor) (tx : List Byte) (s : State) : (refEffect d tx s).rest = s.rest := by
  unfold refEffect; split <;> simp
@[simp] theorem refEffect_rx (d : Descriptor) (tx : List Byte) (s : State) : (refEffect d tx s).rx = s.rx := by
  unfold refEffect; split <;> simp
@[simp] theorem refEffect_cursor (d : Descriptor) (tx : List Byte) (s : State) : (refEffect d tx s).cursor = s.cursor := by
  unfold refEffect; split <;> simp
@[simp] theorem refEffect_remaining (d : Descriptor) (tx : List Byte) (s : State) : (refEffect d tx s).remaining = s.remaining := by
  unfold refEffect; split <;> simp
@[simp] theorem refEffect_srcOff (d : Descriptor) (tx : List Byte) (s : State) : (refEffect d tx s).srcOff = s.srcOff := by
  unfold refEffect; split <;> simp
@[simp] theorem refEffect_chunkLen (d : Descriptor) (tx : List Byte) (s : State) : (refEffect d tx s).chunkLen = s.chunkLen := by
  unfold refEffect; split <;> simp
@[simp] theorem refEffect_op (d : Descriptor) (tx : List Byte) (s : State) : (refEffect d tx s).op = s.op := by
  unfold refEffect; split <;> simp
@[simp] theorem refEffect_addr (d : Descriptor) (tx : List Byte) (s : State) : (refEffect d tx s).addr = s.addr := by
  unfold refEffect; split <;> simp
@[simp] theorem refEffect_len (d : Descriptor) (tx : List Byte) (s : State) : (refEffect d tx s).len = s.len := by
  unfold refEffect; split <;> simp
@[simp] theorem refEffect_value (d : Descriptor) (tx : List Byte) (s : State) : (refEffect d tx s).value = s.value := by
  unfold refEffect; split <;> simp
@[simp] theorem refEffect_tx (d : Descriptor) (tx : List Byte) (s : State) : (refEffect d tx s).tx = s.tx := by
  unfold refEffect; split <;> simp
@[simp] theorem refEffect_count (d : Descriptor) (tx : List Byte) (s : State) : (refEffect d tx s).count = s.count := by
  unfold refEffect; split <;> simp
@[simp] theorem refEffect_window (d : Descriptor) (tx : List Byte) (s : State) : (refEffect d tx s).window = s.window := by
  unfold refEffect; split <;> simp
@[simp] theorem refEffect_trace (d : Descriptor) (tx : List Byte) (s : State) : (refEffect d tx s).trace = s.trace := by
  unfold refEffect; split <;> simp
@[simp] theorem refEffect_src (d : Descriptor) (tx : List Byte) (s : State) : (refEffect d tx s).src = s.src := by
  unfold refEffect; split <;> simp
@[simp] theorem refEffect_dst (d : Descriptor) (tx : List Byte) (s : State) : (refEffect d tx s).dst = s.dst := by
  unfold refEffect; split <;> simp
@[simp] theorem refEffect_response (d : Descriptor) (tx : List Byte) (s : State) : (refEffect d tx s).response = s.response := by
  unfold refEffect; split <;> simp
@[simp] theorem refEffect_loaded (d : Descriptor) (tx : List Byte) (s : State) : (refEffect d tx s).loaded = s.loaded := by
  unfold refEffect; split <;> simp
@[simp] theorem refEffect_agenda (d : Descriptor) (tx : List Byte) (s : State) : (refEffect d tx s).agenda = s.agenda := by
  unfold refEffect; split <;> simp
@[simp] theorem refEffect_resetPending (d : Descriptor) (tx : List Byte) (s : State) : (refEffect d tx s).resetPending = s.resetPending := by
  unfold refEffect; split <;> simp
@[simp] theorem refEffect_env (d : Descriptor) (tx : List Byte) (s : State) : (refEffect d tx s).env = s.env := by
  unfold refEffect; split <;> simp
@[simp] theorem refEffect_replies (d : Descriptor) (tx : List Byte) (s : State) : (refEffect d tx s).replies = s.replies := by
  unfold refEffect; split <;> simp
@[simp] theorem refEffect_params (d : Descriptor) (tx : List Byte) (s : State) : (refEffect d tx s).params = s.params := by
  unfold refEffect; split <;> simp
@[simp] theorem refReply_mode (d : Descriptor) (n : Nat) (s : State) : (refReply d n s).2.mode = s.mode := by
  unfold refReply; split <;> (try split) <;> simp
@[simp] theorem respond_mode (d : Descriptor) (n : Nat) (s : State) : (respond d n s).2.mode = s.mode := by
  unfold respond; split <;> (try split) <;> simp
@[simp] theorem refReply_ctl (d : Descriptor) (n : Nat) (s : State) : (refReply d n s).2.ctl = s.ctl := by
  unfold refReply; split <;> (try split) <;> simp
@[simp] theorem respond_ctl (d : Descriptor) (n : Nat) (s : State) : (respond d n s).2.ctl = s.ctl := by
  unfold respond; split <;> (try split) <;> simp
@[simp] theorem refReply_rest (d : Descriptor) (n : Nat) (s : State) : (refReply d n s).2.rest = s.rest := by
  unfold refReply; split <;> (try split) <;> simp
@[simp] theorem respond_rest (d : Descriptor) (n : Nat) (s : State) : (respond d n s).2.rest = s.rest := by
  unfold respond; split <;> (try split) <;> simp
@[simp] theorem refReply_rx (d : Descriptor) (n : Nat) (s : State) : (refReply d n s).2.rx = s.rx := by
  unfold refReply; split <;> (try split) <;> simp
@[simp] theorem respond_rx (d : Descriptor) (n : Nat) (s : State) : (respond d n s).2.rx = s.rx := by
  unfold respond; split <;> (try split) <;> simp
@[simp] theorem refReply_cursor (d : Descriptor) (n : Nat) (s : State) : (refReply d n s).2.cursor = s.cursor := by
  unfold refReply; split <;> (try split) <;> simp
@[simp] theorem respond_cursor (d : Descriptor) (n : Nat) (s : State) : (respond d n s).2.cursor = s.cursor := by
  unfold respond; split <;> (try split) <;> simp
@[simp] theorem refReply_remaining (d : Descriptor) (n : Nat) (s : State) : (refReply d n s).2.remaining = s.remaining := by
  unfold refReply; split <;> (try split) <;> simp
@[simp] theorem respond_remaining (d : Descriptor) (n : Nat) (s : State) : (respond d n s).2.remaining = s.remaining := by
  unfold respond; split <;> (try split) <;> simp
@[simp] theorem refReply_srcOff (d : Descriptor) (n : Nat) (s : State) : (refReply d n s).2.srcOff = s.srcOff := by
  unfold refReply; split <;> (try split) <;> simp
@[simp] theorem respond_srcOff (d : Descriptor) (n : Nat) (s : State) : (respond d n s).2.srcOff = s.srcOff := by
  unfold respond; split <;> (try split) <;> simp
@[simp] theorem refReply_chunkLen (d : Descriptor) (n : Nat) (s : State) : (refReply d n s).2.chunkLen = s.chunkLen := by
  unfold refReply; split <;> (try split) <;> simp
@[simp] theorem respond_chunkLen (d : Descriptor) (n : Nat) (s : State) : (respond d n s).2.chunkLen = s.chunkLen := by
  unfold respond; split <;> (try split) <;> simp
@[simp] theorem refReply_op (d : Descriptor) (n : Nat) (s : State) : (refReply d n s).2.op = s.op := by
  unfold refReply; split <;> (try split) <;> simp
@[simp] theorem respond_op (d : Descriptor) (n : Nat) (s : State) : (respond d n s).2.op = s.op := by
  unfold respond; split <;> (try split) <;> simp
@[simp] theorem refReply_addr (d : Descriptor) (n : Nat) (s : State) : (refReply d n s).2.addr = s.addr := by
  unfold refReply; split <;> (try split) <;> simp
@[simp] theorem respond_addr (d : Descriptor) (n : Nat) (s : State) : (respond d n s).2.addr = s.addr := by
  unfold respond; split <;> (try split) <;> simp
@[simp] theorem refReply_len (d : Descriptor) (n : Nat) (s : State) : (refReply d n s).2.len = s.len := by
  unfold refReply; split <;> (try split) <;> simp
@[simp] theorem respond_len (d : Descriptor) (n : Nat) (s : State) : (respond d n s).2.len = s.len := by
  unfold respond; split <;> (try split) <;> simp
@[simp] theorem refReply_value (d : Descriptor) (n : Nat) (s : State) : (refReply d n s).2.value = s.value := by
  unfold refReply; split <;> (try split) <;> simp
@[simp] theorem respond_value (d : Descriptor) (n : Nat) (s : State) : (respond d n s).2.value = s.value := by
  unfold respond; split <;> (try split) <;> simp
@[simp] theorem refReply_tx (d : Descriptor) (n : Nat) (s : State) : (refReply d n s).2.tx = s.tx := by
  unfold refReply; split <;> (try split) <;> simp
@[simp] theorem respond_tx (d : Descriptor) (n : Nat) (s : State) : (respond d n s).2.tx = s.tx := by
  unfold respond; split <;> (try split) <;> simp
@[simp] theorem refReply_count (d : Descriptor) (n : Nat) (s : State) : (refReply d n s).2.count = s.count := by
  unfold refReply; split <;> (try split) <;> simp
@[simp] theorem respond_count (d : Descriptor) (n : Nat) (s : State) : (respond d n s).2.count = s.count := by
  unfold respond; split <;> (try split) <;> simp
@[simp] theorem refReply_window (d : Descriptor) (n : Nat) (s : State) : (refReply d n s).2.window = s.window := by
  unfold refReply; split <;> (try split) <;> simp
@[simp] theorem respond_window (d : Descriptor) (n : Nat) (s : State) : (respond d n s).2.window = s.window := by
  unfold respond; split <;> (try split) <;> simp
@[simp] theorem refReply_trace (d : Descriptor) (n : Nat) (s : State) : (refReply d n s).2.trace = s.trace := by
  unfold refReply; split <;> (try split) <;> simp
@[simp] theorem respond_trace (d : Descriptor) (n : Nat) (s : State) : (respond d n s).2.trace = s.trace := by
  unfold respond; split <;> (try split) <;> simp
@[simp] theorem refReply_src (d : Descriptor) (n : Nat) (s : State) : (refReply d n s).2.src = s.src := by
  unfold refReply; split <;> (try split) <;> simp
@[simp] theorem respond_src (d : Descriptor) (n : Nat) (s : State) : (respond d n s).2.src = s.src := by
  unfold respond; split <;> (try split) <;> simp
@[simp] theorem refReply_dst (d : Descriptor) (n : Nat) (s : State) : (refReply d n s).2.dst = s.dst := by
  unfold refReply; split <;> (try split) <;> simp
@[simp] theorem respond_dst (d : Descriptor) (n : Nat) (s : State) : (respond d n s).2.dst = s.dst := by
  unfold respond; split <;> (try split) <;> simp
@[simp] theorem refReply_response (d : Descriptor) (n : Nat) (s : State) : (refReply d n s).2.response = s.response := by
  unfold refReply; split <;> (try split) <;> simp
@[simp] theorem respond_response (d : Descriptor) (n : Nat) (s : State) : (respond d n s).2.response = s.response := by
  unfold respond; split <;> (try split) <;> simp
@[simp] theorem refReply_loaded (d : Descriptor) (n : Nat) (s : State) : (refReply d n s).2.loaded = s.loaded := by
  unfold refReply; split <;> (try split) <;> simp
@[simp] theorem respond_loaded (d : Descriptor) (n : Nat) (s : State) : (respond d n s).2.loaded = s.loaded := by
  unfold respond; split <;> (try split) <;> simp
@[simp] theorem refReply_agenda (d : Descriptor) (n : Nat) (s : State) : (refReply d n s).2.agenda = s.agenda := by
  unfold refReply; split <;> (try split) <;> simp
@[simp] theorem respond_agenda (d : Descriptor) (n : Nat) (s : State) : (respond d n s).2.agenda = s.agenda := by
  unfold respond; split <;> (try split) <;> simp
@[simp] theorem refReply_resetPending (d : Descriptor) (n : Nat) (s : State) : (refReply d n s).2.resetPending = s.resetPending := by
  unfold refReply; split <;> (try split) <;> simp
@[simp] theorem respond_resetPending (d : Descriptor) (n : Nat) (s : State) : (respond d n s).2.resetPending = s.resetPending := by
  unfold respond; split <;> (try split) <;> simp
@[simp] theorem refReply_env (d : Descriptor) (n : Nat) (s : State) : (refReply d n s).2.env = s.env := by
  unfold refReply; split <;> (try split) <;> simp
@[simp] theorem respond_env (d : Descriptor) (n : Nat) (s : State) : (respond d n s).2.env = s.env := by
  unfold respond; split <;> (try split) <;> simp
@[simp] theorem refReply_params (d : Descriptor) (n : Nat) (s : State) : (refReply d n s).2.params = s.params := by
  unfold refReply; split <;> (try split) <;> simp
@[simp] theorem respond_params (d : Descriptor) (n : Nat) (s : State) : (respond d n s).2.params = s.params := by
  unfold respond; split <;> (try split) <;> simp

/-! ### transport: a transport call changes the device, the environment's own fields, the trace, and, by its kind, the
bytes received or the window (R110 to R113) -/

@[simp] theorem transport_mode (k : Kind) (d : Descriptor) (n : Nat) (s : State) :
    (transport k d n s).mode = s.mode := by simp [transport]
@[simp] theorem transport_ctl (k : Kind) (d : Descriptor) (n : Nat) (s : State) :
    (transport k d n s).ctl = s.ctl := by simp [transport]
@[simp] theorem transport_rest (k : Kind) (d : Descriptor) (n : Nat) (s : State) :
    (transport k d n s).rest = s.rest := by simp [transport]
@[simp] theorem transport_rx (k : Kind) (d : Descriptor) (n : Nat) (s : State) :
    (transport k d n s).rx = if k = .read then (respond d n s).1 else s.rx := by simp [transport]
@[simp] theorem transport_cursor (k : Kind) (d : Descriptor) (n : Nat) (s : State) :
    (transport k d n s).cursor = s.cursor := by simp [transport]
@[simp] theorem transport_remaining (k : Kind) (d : Descriptor) (n : Nat) (s : State) :
    (transport k d n s).remaining = s.remaining := by simp [transport]
@[simp] theorem transport_srcOff (k : Kind) (d : Descriptor) (n : Nat) (s : State) :
    (transport k d n s).srcOff = s.srcOff := by simp [transport]
@[simp] theorem transport_chunkLen (k : Kind) (d : Descriptor) (n : Nat) (s : State) :
    (transport k d n s).chunkLen = s.chunkLen := by simp [transport]
@[simp] theorem transport_op (k : Kind) (d : Descriptor) (n : Nat) (s : State) :
    (transport k d n s).op = s.op := by simp [transport]
@[simp] theorem transport_addr (k : Kind) (d : Descriptor) (n : Nat) (s : State) :
    (transport k d n s).addr = s.addr := by simp [transport]
@[simp] theorem transport_len (k : Kind) (d : Descriptor) (n : Nat) (s : State) :
    (transport k d n s).len = s.len := by simp [transport]
@[simp] theorem transport_value (k : Kind) (d : Descriptor) (n : Nat) (s : State) :
    (transport k d n s).value = s.value := by simp [transport]
@[simp] theorem transport_tx (k : Kind) (d : Descriptor) (n : Nat) (s : State) :
    (transport k d n s).tx = [] := by simp [transport]
@[simp] theorem transport_count (k : Kind) (d : Descriptor) (n : Nat) (s : State) :
    (transport k d n s).count = 0 := by simp [transport]
@[simp] theorem transport_window (k : Kind) (d : Descriptor) (n : Nat) (s : State) :
    (transport k d n s).window = if k = .arm then some d else s.window := by simp [transport]
@[simp] theorem transport_trace (k : Kind) (d : Descriptor) (n : Nat) (s : State) :
    (transport k d n s).trace = s.trace ++ [eventOf k d n s.tx (respond d n s).1] := by simp [transport]
@[simp] theorem transport_src (k : Kind) (d : Descriptor) (n : Nat) (s : State) :
    (transport k d n s).src = s.src := by simp [transport]
@[simp] theorem transport_dst (k : Kind) (d : Descriptor) (n : Nat) (s : State) :
    (transport k d n s).dst = s.dst := by simp [transport]
@[simp] theorem transport_response (k : Kind) (d : Descriptor) (n : Nat) (s : State) :
    (transport k d n s).response = s.response := by simp [transport]
@[simp] theorem transport_loaded (k : Kind) (d : Descriptor) (n : Nat) (s : State) :
    (transport k d n s).loaded = s.loaded := by simp [transport]
@[simp] theorem transport_agenda (k : Kind) (d : Descriptor) (n : Nat) (s : State) :
    (transport k d n s).agenda = s.agenda := by simp [transport]
@[simp] theorem transport_resetPending (k : Kind) (d : Descriptor) (n : Nat) (s : State) :
    (transport k d n s).resetPending = s.resetPending := by simp [transport]
@[simp] theorem transport_env (k : Kind) (d : Descriptor) (n : Nat) (s : State) :
    (transport k d n s).env = s.env := by simp [transport]
@[simp] theorem transport_params (k : Kind) (d : Descriptor) (n : Nat) (s : State) :
    (transport k d n s).params = s.params := by simp [transport]
@[simp] theorem transport_device (k : Kind) (d : Descriptor) (n : Nat) (s : State) :
    (transport k d n s).device = (respond d n s).2.device := rfl
@[simp] theorem transport_fresh (k : Kind) (d : Descriptor) (n : Nat) (s : State) :
    (transport k d n s).fresh = (respond d n s).2.fresh := rfl
@[simp] theorem transport_replies (k : Kind) (d : Descriptor) (n : Nat) (s : State) :
    (transport k d n s).replies = (respond d n s).2.replies := rfl

end Sys2Proof.Machine
end

