-- ==== Sys2Proof/Laws/Memory.lean ====
section
/-! SUPPORT. The flash array: every operation keeps the canonical form, a read after a write gives the byte written and a
write leaves every other address alone, and equal contents are equal lists. -/
namespace Sys2Proof.Machine

theorem Memory.wf_nil (p : Config.Params) : Memory.wf p [] := ⟨List.Pairwise.nil, by simp⟩

/-- Every address of an insertion is the one inserted or was there before. -/
theorem Memory.mem_insert {e : Byte} {a : Nat} {v : Byte} {m : List Host.Cell} {c : Host.Cell}
    (h : c ∈ Memory.insert e a v m) : c = (a, v) ∧ v ≠ e ∨ c ∈ m := by
  induction m with
  | nil =>
    simp only [Memory.insert] at h
    split at h <;> simp_all
  | cons d m ih =>
    simp only [Memory.insert] at h
    split at h
    · split at h <;> simp_all
    · split at h
      · split at h
        · simp_all
        · rcases List.mem_cons.mp h with h | h <;> simp_all
      · rcases List.mem_cons.mp h with h | h
        · simp [h]
        · rcases ih h with h | h <;> simp [h]

theorem Memory.insert_pairwise {e : Byte} {a : Nat} {v : Byte} {m : List Host.Cell}
    (h : m.Pairwise (fun c d => c.1 < d.1)) : (Memory.insert e a v m).Pairwise (fun c d => c.1 < d.1) := by
  induction m with
  | nil => simp only [Memory.insert]; split <;> simp
  | cons d m ih =>
    have hd : ∀ c ∈ m, d.1 < c.1 := fun c hc => List.rel_of_pairwise_cons h hc
    simp only [Memory.insert]
    split
    · split
      · exact h
      · refine List.pairwise_cons.mpr ⟨fun c hc => ?_, h⟩
        rcases List.mem_cons.mp hc with rfl | hc
        · assumption
        · have := hd c hc; simp only at *; omega
    · split
      · split
        · exact h.of_cons
        · refine List.pairwise_cons.mpr ⟨fun c hc => ?_, h.of_cons⟩
          have := hd c hc
          simp only at *; omega
      · refine List.pairwise_cons.mpr ⟨fun c hc => ?_, ih h.of_cons⟩
        rcases Memory.mem_insert hc with ⟨rfl, -⟩ | hc
        · simp only; omega
        · exact hd c hc

/-- Writing one byte keeps the canonical form. -/
theorem Memory.write_wf {p : Config.Params} {m : List Host.Cell} (a : Nat) (v : Byte) (h : Memory.wf p m) :
    Memory.wf p (Memory.write p a v m) := by
  unfold Memory.write
  split
  · refine ⟨Memory.insert_pairwise h.1, fun c hc => ?_⟩
    rcases Memory.mem_insert hc with ⟨rfl, hv⟩ | hc
    · exact ⟨by assumption, hv⟩
    · exact h.2 c hc
  · exact h

/-- Erasing a region keeps the canonical form. -/
theorem Memory.erase_wf {p : Config.Params} {m : List Host.Cell} (lo size : Nat) (h : Memory.wf p m) :
    Memory.wf p (Memory.erase lo size m) :=
  ⟨h.1.filter _, fun c hc => h.2 c (List.mem_filter.mp hc).1⟩

theorem Memory.foldl_write_wf {p : Config.Params} (cells m : List Host.Cell) (h : Memory.wf p m) :
    Memory.wf p (cells.foldl (fun m c => Memory.write p c.1 c.2 m) m) := by
  induction cells generalizing m with
  | nil => exact h
  | cons c cs ih => exact ih _ (Memory.write_wf _ _ h)

/-- Any list of cells is brought into the canonical form. -/
theorem Memory.normalise_wf (p : Config.Params) (cells : List Host.Cell) : Memory.wf p (Memory.normalise p cells) :=
  Memory.foldl_write_wf cells [] (Memory.wf_nil p)

/-- An address below every listed one reads as unlisted. -/
theorem Memory.read_below {p : Config.Params} {m : List Host.Cell} {a : Nat} (h : ∀ c ∈ m, a < c.1) :
    Memory.read p m a = p.erasedByte := by
  induction m with
  | nil => rfl
  | cons c m ih =>
    have hc := h c (by simp)
    rw [Memory.read, if_neg (by omega)]
    exact ih fun d hd => h d (by simp [hd])

theorem Memory.read_insert {p : Config.Params} {m : List Host.Cell} (a : Nat) (v : Byte) (b : Nat)
    (h : m.Pairwise (fun c d => c.1 < d.1)) :
    Memory.read p (Memory.insert p.erasedByte a v m) b = if b = a then v else Memory.read p m b := by
  induction m with
  | nil =>
    simp only [Memory.insert]
    split <;> split <;> simp_all [Memory.read, eq_comm]
  | cons d m ih =>
    have hd : ∀ c ∈ m, d.1 < c.1 := fun c hc => List.rel_of_pairwise_cons h hc
    have hlow : a < d.1 ∨ a = d.1 → Memory.read p m a = p.erasedByte := fun ha =>
      Memory.read_below fun c hc => by have := hd c hc; omega
    simp only [Memory.insert]
    split
    · split
      · by_cases hb : b = a
        · subst hb
          rw [if_pos rfl, Memory.read, if_neg (by omega), hlow (.inl ‹_›)]
          simp_all
        · simp [hb]
      · by_cases hb : b = a
        · subst hb; simp [Memory.read]
        · rw [if_neg hb, Memory.read, if_neg (by simp only; omega)]
    · split
      · rename_i hne heq
        split
        · by_cases hb : b = a
          · subst hb; rw [if_pos rfl, hlow (.inr heq)]; simp_all
          · rw [if_neg hb, Memory.read, if_neg (by omega)]
        · by_cases hb : b = a
          · subst hb; simp [Memory.read]
          · rw [if_neg hb, Memory.read, if_neg (by simp only; omega), Memory.read, if_neg (by omega)]
      · rename_i h1 h2
        by_cases hb : d.1 = b
        · rw [Memory.read, if_pos hb, if_neg (by omega), Memory.read, if_pos hb]
        · rw [Memory.read, if_neg hb, ih h.of_cons, Memory.read, if_neg hb]

/-- A read after a write inside the array: the byte written at its address, any other byte as before. -/
theorem Memory.read_write {p : Config.Params} {m : List Host.Cell} (a : Nat) (v : Byte) (b : Nat) (h : Memory.wf p m)
    (ha : a < flashBytes p) :
    Memory.read p (Memory.write p a v m) b = if b = a then v else Memory.read p m b := by
  rw [Memory.write, if_pos ha, Memory.read_insert a v b h.1]

/-- A write leaves every other address alone, wherever it goes. -/
theorem Memory.read_write_other {p : Config.Params} {m : List Host.Cell} {a b : Nat} (v : Byte) (h : Memory.wf p m)
    (hb : b ≠ a) : Memory.read p (Memory.write p a v m) b = Memory.read p m b := by
  unfold Memory.write
  split
  · rw [Memory.read_insert a v b h.1, if_neg hb]
  · rfl

/-- A read after an erase: `ERASED_BYTE` inside the region, as before outside it. -/
theorem Memory.read_erase (p : Config.Params) (m : List Host.Cell) (lo size b : Nat) :
    Memory.read p (Memory.erase lo size m) b =
      if lo ≤ b ∧ b < lo + size then p.erasedByte else Memory.read p m b := by
  induction m with
  | nil => simp [Memory.erase, Memory.read]
  | cons c m ih =>
    simp only [Memory.erase] at ih
    by_cases hc : c.1 < lo ∨ lo + size ≤ c.1
    · rw [Memory.erase, List.filter_cons_of_pos (by simpa using hc), Memory.read, ih]
      by_cases hb : c.1 = b
      · rw [if_pos hb, if_neg (by omega), Memory.read, if_pos hb]
      · rw [if_neg hb, Memory.read, if_neg hb]
    · rw [Memory.erase, List.filter_cons_of_neg (by simpa using hc), ih]
      by_cases hb : c.1 = b
      · rw [if_pos (by omega), if_pos (by omega)]
      · rw [Memory.read, if_neg hb]

/-- Two canonical arrays with the same contents are the same list. -/
theorem Memory.ext {p : Config.Params} {m m' : List Host.Cell} (h : Memory.wf p m) (h' : Memory.wf p m')
    (hr : ∀ a, Memory.read p m a = Memory.read p m' a) : m = m' := by
  induction m generalizing m' with
  | nil =>
    cases m' with
    | nil => rfl
    | cons d m' =>
      have := hr d.1
      simp only [Memory.read, if_pos] at this
      exact absurd this.symm (h'.2 d (by simp)).2
  | cons c m ih =>
    cases m' with
    | nil =>
      have := hr c.1
      simp only [Memory.read, if_pos] at this
      exact absurd this (h.2 c (by simp)).2
    | cons d m' =>
      have hc : ∀ e ∈ m, c.1 < e.1 := fun e he => List.rel_of_pairwise_cons h.1 he
      have hd : ∀ e ∈ m', d.1 < e.1 := fun e he => List.rel_of_pairwise_cons h'.1 he
      have hcd : c.1 = d.1 := by
        rcases Nat.lt_trichotomy c.1 d.1 with hlt | heq | hgt
        · have := hr c.1
          rw [Memory.read, if_pos rfl, Memory.read_below (m := d :: m')] at this
          · exact absurd this (h.2 c (by simp)).2
          · intro e he
            rcases List.mem_cons.mp he with rfl | he
            · exact hlt
            · exact Nat.lt_trans hlt (hd e he)
        · exact heq
        · have := hr d.1
          rw [Memory.read_below (m := c :: m), Memory.read, if_pos rfl] at this
          · exact absurd this.symm (h'.2 d (by simp)).2
          · intro e he
            rcases List.mem_cons.mp he with rfl | he
            · exact hgt
            · exact Nat.lt_trans hgt (hc e he)
      have hv : c.2 = d.2 := by
        have := hr c.1
        rwa [Memory.read, if_pos rfl, Memory.read, if_pos hcd.symm] at this
      have hm : m = m' := by
        refine ih ⟨h.1.of_cons, fun e he => h.2 e (by simp [he])⟩ ⟨h'.1.of_cons, fun e he => h'.2 e (by simp [he])⟩ ?_
        intro a
        by_cases ha : c.1 = a
        · rw [Memory.read_below fun e he => ha ▸ hc e he, Memory.read_below fun e he => ha ▸ hcd ▸ hd e he]
        · have := hr a
          rwa [Memory.read, if_neg ha, Memory.read, if_neg (by omega)] at this
      rw [hm, Prod.ext hcd hv]

/-! ### The environment keeps the canonical form -/

theorem freeDevice_wf (s : State) : Memory.wf s.params (freeDevice s).device.flash := Memory.normalise_wf _ _

theorem programByte_wf (a : Nat) (b : Byte) {s : State} (h : Memory.wf s.params s.device.flash) :
    Memory.wf s.params (programByte a b s).device.flash := by
  unfold programByte
  split <;> exact Memory.write_wf _ _ h

theorem programBytes_wf (a : Nat) (bs : List Byte) {s : State} (h : Memory.wf s.params s.device.flash) :
    Memory.wf s.params (programBytes a bs s).device.flash := by
  induction bs generalizing a s with
  | nil => exact h
  | cons b bs ih =>
    have h1 : Memory.wf (programByte a b s).params (programByte a b s).device.flash := by
      rw [programByte_params]; exact programByte_wf a b h
    have := ih (a + 1) h1
    rwa [programByte_params] at this

theorem refEffect_wf (d : Descriptor) (tx : List Byte) {s : State} (h : Memory.wf s.params s.device.flash) :
    Memory.wf s.params (refEffect d tx s).device.flash := by
  unfold refEffect
  split <;> first
    | exact h
    | exact Memory.erase_wf _ _ h
    | exact Memory.wf_nil _
    | exact programBytes_wf _ _ h

theorem refReply_device (d : Descriptor) (n : Nat) (s : State) : (refReply d n s).2.device = s.device := by
  unfold refReply
  split <;> (try split) <;> rfl

/-- Whatever the environment does, the flash array stays canonical. -/
theorem respond_wf (d : Descriptor) (n : Nat) {s : State} (h : Memory.wf s.params s.device.flash) :
    Memory.wf s.params (respond d n s).2.device.flash := by
  unfold respond
  split
  · exact freeDevice_wf (s.draw n).2
  · split
    · exact refEffect_wf d s.tx h
    · have h2 : Memory.wf (refReply d n s).2.params (refReply d n s).2.device.flash := by
        rw [refReply_params, refReply_device]; exact h
      have := refEffect_wf d s.tx h2
      rwa [refReply_params] at this

/-- A transport call keeps the flash array canonical. -/
theorem transport_wf (k : Kind) (d : Descriptor) (n : Nat) {s : State} (h : Memory.wf s.params s.device.flash) :
    Memory.wf s.params (transport k d n s).device.flash := respond_wf d n h

/-! ### What the environment returns -/

/-- A draw gives exactly the bytes asked for (R112), and those that were lined up where there are enough of them. -/
theorem drawBytes_spec (n : Nat) (rs : List Byte) (k : Nat) :
    (drawBytes n rs k).1.length = n ∧
    (n ≤ rs.length → (drawBytes n rs k).1 = rs.take n ∧ (drawBytes n rs k).2.1 = rs.drop n) := by
  induction n generalizing rs k with
  | zero => simp [drawBytes]
  | succ n ih =>
    cases rs with
    | nil => simp [drawBytes, ih]
    | cons r rs =>
      refine ⟨by simp [drawBytes, (ih rs k).1], fun h => ?_⟩
      simp at h
      simp [drawBytes, (ih rs k).2 h]

/-- A payload has its `n` bytes whatever `Src` is (R92; log entry 15). -/
@[simp] theorem payload_length (off n : Nat) (s : State) : (payload off n s).length = n := by
  simp [payload, srcSlice, (drawBytes_spec _ [] s.fresh).1]

/-- Of a `Src` that holds them all the payload is the slice (R92). -/
theorem payload_of_enough {off n : Nat} {s : State} (h : off + n ≤ s.src.length) :
    payload off n s = srcSlice s.src off n := by
  simp [payload, srcSlice, Nat.min_eq_left (show n ≤ s.src.length - off by omega), drawBytes]

/-- Then no byte of it is free. -/
theorem takePayload_of_enough {off n : Nat} {s : State} (h : off + n ≤ s.src.length) : takePayload off n s = s := by
  simp [takePayload, srcSlice, Nat.min_eq_left (show n ≤ s.src.length - off by omega)]

/-- The bytes of a payload that `Src` holds come first, in index order (R58, R92). -/
theorem payload_take (n : Nat) (s : State) : (payload 0 n s).take s.src.length = s.src.take n := by
  rcases Nat.le_total n s.src.length with h | h
  · rw [payload_of_enough (by omega), srcSlice, List.drop_zero, List.take_take, Nat.min_eq_right h]
  · simp [payload, srcSlice, List.take_of_length_le h]

/-- The little-endian word of a range of the array, as a sum over its bytes (R57). -/
theorem littleEndian_readBytes (p : Config.Params) (m : List Host.Cell) (a k : Nat) :
    littleEndian (Memory.readBytes p m a k) =
      ∑ i ∈ Finset.range k, (Memory.read p m (a + i)).toNat * 256 ^ i := by
  induction k generalizing a with
  | zero => simp [Memory.readBytes, littleEndian]
  | succ k ih =>
    have hs : Memory.readBytes p m a (k + 1) = Memory.read p m a :: Memory.readBytes p m (a + 1) k := by
      simp only [Memory.readBytes, List.range_succ_eq_map, List.map_cons, List.map_map, Nat.add_zero, List.cons.injEq,
        true_and]
      exact List.map_congr_left fun x _ => congrArg (Memory.read p m) (show a + (x + 1) = a + 1 + x by omega)
    rw [Finset.sum_range_succ', hs, littleEndian, ih, Finset.mul_sum, Nat.add_comm]
    simp only [Nat.add_zero, pow_zero, mul_one]
    congr 1
    refine Finset.sum_congr rfl fun i _ => ?_
    rw [pow_succ, show a + 1 + i = a + (i + 1) by omega]
    ring

end Sys2Proof.Machine
end

