-- ==== Sys2Proof/Laws/Control.lean ====
section
/-! SUPPORT. What the transport port and the sequencer can do, said once: a row's word runs the row, a bus command that
answers made one transport call, local computation touches nothing outside the block, and a step of a Busy block is one
transport call or the end of the operation. -/
namespace Sys2Proof.Machine

/-! ### The transport port -/

/-- The word of a row's call is its packed descriptor. -/
theorem busCall_word {i : Instr} {d : Descriptor} (h : busDescriptor i = some d) (tx : List Byte) (n : Nat) :
    (busCall i tx n).word = d.pack := by simp [busCall, h]

/-- The port runs the row whose word it is given (R97). -/
theorem issueWith_row (run : Instr → State → Result) {i : Instr} {d : Descriptor} (h : busDescriptor i = some d)
    (tx : List Byte) (n : Nat) (s : State) :
    issueWith run { word := d.pack, tx := tx, count := n } s = run i { s with tx := tx, count := n } := by
  simp [issueWith, decodeBus_pack h]

/-- The port runs the command whose call it is given. -/
theorem issueWith_busCall (run : Instr → State → Result) {i : Instr} {d : Descriptor} (h : busDescriptor i = some d)
    (tx : List Byte) (n : Nat) (s : State) :
    issueWith run (busCall i tx n) s = run i { s with tx := tx, count := n } := by
  simp [busCall, h, issueWith, decodeBus_pack h]

/-- On bus commands the port's dispatcher and the machine's agree. -/
theorem runBus_eq_exec {i : Instr} {d : Descriptor} (h : busDescriptor i = some d) (s : State) :
    runBus i s = exec i s := by
  cases i <;> simp [busDescriptor] at h <;> rfl

/-- The port may use either dispatcher. -/
theorem issueWith_exec (c : Call) (s : State) : issueWith exec c s = issueWith runBus c s := by
  unfold issueWith
  cases h : decodeBus c.word with
  | error e => rfl
  | ok i =>
    obtain ⟨d, -, hd⟩ := decodeBus_ok h
    exact (runBus_eq_exec hd _).symm

/-- A Busy step may use either dispatcher. -/
theorem blockStepWith_exec (s : State) : blockStepWith exec s = blockStepWith runBus s := by
  unfold blockStepWith
  split <;> simp only [issueWith_exec]

/-- The kind that carries a command, where it is known to be one. -/
def kindOf (i : Instr) : Kind := (busKind i).getD .command

theorem portOpen_next {s t : State} {r : Result} (h : portOpen s r = .next t) : s.window = none ∧ r = .next t := by
  unfold portOpen at h
  split at h
  · cases h
  · exact ⟨by simpa using ‹¬ s.window.isSome = true›, h⟩

/-- A bus command that answers a next state made one transport call, of its row's descriptor and kind, on an unarmed
port (R10, R86, R136). -/
theorem runBus_next {i : Instr} {s t : State} (h : runBus i s = .next t) :
    s.window = none ∧ ∃ d n, busDescriptor i = some d ∧ t = transport (kindOf i) d n s := by
  cases i <;> simp only [runBus, reduceCtorEq] at h
  case qpp | srp | wrsr1 | wrcr =>
    obtain ⟨hw, h⟩ := portOpen_next h
    split at h
    · cases h
    · cases h; exact ⟨hw, _, _, rfl, rfl⟩
  case rdid | qread | rdsr1 | rdcr =>
    obtain ⟨hw, h⟩ := portOpen_next h
    split at h
    · cases h
    · cases h; exact ⟨hw, _, _, rfl, rfl⟩
  all_goals
    obtain ⟨hw, h⟩ := portOpen_next h
    cases h
    exact ⟨hw, _, _, rfl, rfl⟩

/-- The calls of the register layer are calls of rows, at the width of `qia` (R88, R157). -/
theorem registerCall_rdsr1 (tx : List Byte) (s : State) : registerCall opRDSR1 tx s = busCall (.rdsr1 s.qia) tx 0 := rfl

theorem registerCall_rdcr (tx : List Byte) (s : State) : registerCall opRDCR tx s = busCall (.rdcr s.qia) tx 0 := rfl

theorem registerCall_wrsr1 (tx : List Byte) (s : State) : registerCall opWRSR1 tx s = busCall (.wrsr1 s.qia) tx 0 := rfl

theorem registerCall_wrcr (tx : List Byte) (s : State) : registerCall opWRCR tx s = busCall (.wrcr s.qia) tx 0 := rfl

/-- SRP is the register call with `qia` set (R88, R139). -/
theorem registerCall_srp (tx : List Byte) {s : State} (h : s.qia = true) :
    registerCall opSRP tx s = busCall .srp tx 0 := by
  simp [registerCall, modeWidth, h, busCall, busDescriptor, widthOfBit]

/-- The data phase a row wants: its payload, or a count of at least one (R86). -/
def dataOk (i : Instr) (tx : List Byte) (n : Nat) : Prop :=
  match i with
  | .qpp _ => 1 ≤ tx.length ∧ tx.length ≤ Config.pageSize
  | .srp | .wrsr1 _ | .wrcr _ => tx.length = 1
  | .qread _ => 1 ≤ n
  | _ => True

theorem busCommand_next {s : State} (d : Descriptor) (hw : s.window = none) :
    busCommand d s = .next (transport .command d 0 s) := by simp [busCommand, portOpen, hw]

theorem busArm_next {s : State} (d : Descriptor) (hw : s.window = none) :
    busArm d s = .next (transport .arm d 0 s) := by simp [busArm, portOpen, hw]

theorem busWrite_next {s : State} (d : Descriptor) {most : Nat} (hw : s.window = none) (h1 : 1 ≤ s.tx.length)
    (h2 : s.tx.length ≤ most) : busWrite d most s = .next (transport .write d 0 s) := by
  rw [busWrite, portOpen, if_neg (by simp [hw]), if_neg (by omega)]

theorem busRead_next {s : State} (d : Descriptor) {n : Nat} (hw : s.window = none) (h : 1 ≤ n) :
    busRead d n s = .next (transport .read d n s) := by
  rw [busRead, portOpen, if_neg (by simp [hw]), if_neg (by omega)]

/-- A bus command with the data phase its row wants, on an unarmed port, makes its transport call. -/
theorem runBus_answers {i : Instr} {d : Descriptor} (hd : busDescriptor i = some d) {s : State} (hw : s.window = none)
    (ha : dataOk i s.tx s.count) : ∃ n, runBus i s = .next (transport (kindOf i) d n s) := by
  cases i <;> simp only [busDescriptor, Option.some.injEq, reduceCtorEq] at hd <;> subst hd
  case qpp => exact ⟨_, busWrite_next _ hw ha.1 ha.2⟩
  case qread => exact ⟨_, busRead_next _ hw ha⟩
  case srp => exact ⟨_, busWrite_next _ hw (Nat.le_of_eq (Eq.symm ha)) (Nat.le_of_eq ha)⟩
  case wrsr1 => exact ⟨_, busWrite_next _ hw (Nat.le_of_eq (Eq.symm ha)) (Nat.le_of_eq ha)⟩
  case wrcr => exact ⟨_, busWrite_next _ hw (Nat.le_of_eq (Eq.symm ha)) (Nat.le_of_eq ha)⟩
  case rdid => exact ⟨_, busRead_next _ hw (by decide)⟩
  case rdsr1 => exact ⟨_, busRead_next _ hw (by decide)⟩
  case rdcr => exact ⟨_, busRead_next _ hw (by decide)⟩
  case qioread => exact ⟨_, busArm_next _ hw⟩
  all_goals exact ⟨_, busCommand_next _ hw⟩

/-- What the port answers to a call: one transport call of a row of R86, with the call's arguments. -/
theorem issueWith_next {c : Call} {s t : State} (h : issueWith runBus c s = .next t) :
    s.window = none ∧ ∃ i d n, decodeBus c.word = .ok i ∧ busDescriptor i = some d ∧
      t = transport (kindOf i) d n { s with tx := c.tx, count := c.count } := by
  unfold issueWith at h
  split at h
  · cases h
  · rename_i i hi
    obtain ⟨hw, d, n, hd, rfl⟩ := runBus_next h
    exact ⟨hw, i, d, n, hi, hd, rfl⟩

/-! ### Local computation -/

/-- What no local statement touches: everything outside the mode, the working registers, the bytes received, the
destination buffer, the response and the numbering of free values. -/
structure SameOutside (s t : State) : Prop where
  ctl : t.ctl = s.ctl
  rest : t.rest = s.rest
  op : t.op = s.op
  addr : t.addr = s.addr
  len : t.len = s.len
  value : t.value = s.value
  tx : t.tx = s.tx
  count : t.count = s.count
  window : t.window = s.window
  trace : t.trace = s.trace
  src : t.src = s.src
  loaded : t.loaded = s.loaded
  agenda : t.agenda = s.agenda
  resetPending : t.resetPending = s.resetPending
  device : t.device = s.device
  env : t.env = s.env
  replies : t.replies = s.replies
  params : t.params = s.params

theorem SameOutside.refl (s : State) : SameOutside s s := by constructor <;> rfl

theorem SameOutside.trans {s t u : State} (h : SameOutside s t) (h' : SameOutside t u) : SameOutside s u := by
  obtain ⟨⟩ := h
  obtain ⟨⟩ := h'
  constructor <;> simp_all

theorem act_skip_same {st : Stmt} {s t : State} (h : act st s = .skip t) : SameOutside s t := by
  cases st <;> simp only [act, pageProgramAct, reduceCtorEq] at h
  all_goals (try split at h) <;> (try split at h) <;> cases h
  all_goals constructor <;> rfl

theorem act_call_same {st : Stmt} {s t : State} {c : Call} {k : List Stmt} (h : act st s = .call c k t) :
    SameOutside s t := by
  cases st <;> simp only [act, pageProgramAct, reduceCtorEq] at h
  all_goals (try split at h) <;> (try split at h) <;> cases h
  all_goals constructor <;> rfl

theorem act_fatal_same {st : Stmt} {s t : State} (h : act st s = .fatal t) : SameOutside s t := by
  cases st <;> simp only [act, pageProgramAct, reduceCtorEq] at h
  all_goals (try split at h) <;> (try split at h) <;> cases h
  all_goals constructor <;> rfl

/-- The state local computation leads to. -/
def Pending.state : Pending → State
  | .call _ _ s => s
  | .ended s => s
  | .fatal s => s

/-- Local computation touches nothing outside the block (R10). -/
theorem nextCall_same (k : List Stmt) (s : State) : SameOutside s (nextCall k s).state := by
  induction k generalizing s with
  | nil => exact SameOutside.refl s
  | cons st k ih =>
    simp only [nextCall]
    split
    · exact (act_skip_same ‹_›).trans (ih _)
    · exact act_call_same ‹_›
    · exact act_fatal_same ‹_›

theorem nextCall_call_same {k k' : List Stmt} {s t : State} {c : Call} (h : nextCall k s = .call c k' t) :
    SameOutside s t := by
  have := nextCall_same k s
  rwa [h] at this

theorem nextCall_ended_same {k : List Stmt} {s t : State} (h : nextCall k s = .ended t) : SameOutside s t := by
  have := nextCall_same k s
  rwa [h] at this

theorem nextCall_fatal_same {k : List Stmt} {s t : State} (h : nextCall k s = .fatal t) : SameOutside s t := by
  have := nextCall_same k s
  rwa [h] at this

/-! ### Settling and stepping -/

/-- What settling can do: nothing, end the operation, or take the fault. -/
theorem settle_cases (s : State) :
    settle s = s ∧ (∃ c k t, nextCall s.rest s = .call c k t) ∨
    (∃ t, nextCall s.rest s = .ended t ∧ settle s = finish t) ∨
    (∃ t, nextCall s.rest s = .fatal t ∧ settle s = raiseFatal .pageBoundary t) := by
  unfold settle
  split
  · exact .inl ⟨rfl, _, _, _, ‹_›⟩
  · exact .inr (.inl ⟨_, ‹_›, rfl⟩)
  · exact .inr (.inr ⟨_, ‹_›, rfl⟩)

/-- What settling never touches. -/
theorem settle_outside (s : State) :
    (settle s).trace = s.trace ∧ (settle s).window = s.window ∧ (settle s).params = s.params ∧
    (settle s).env = s.env ∧ (settle s).device = s.device ∧ (settle s).replies = s.replies ∧
    (settle s).src = s.src ∧ (settle s).agenda = s.agenda ∧ (settle s).loaded = s.loaded ∧
    (settle s).resetPending = s.resetPending ∧ (settle s).tx = s.tx ∧ (settle s).count = s.count := by
  rcases settle_cases s with ⟨h, -⟩ | ⟨t, hn, h⟩ | ⟨t, hn, h⟩
  · simp [h]
  · have := nextCall_ended_same hn
    simp [h, this.trace, this.window, this.params, this.env, this.device, this.replies, this.src, this.agenda,
      this.loaded, this.resetPending, this.tx, this.count]
  · have := nextCall_fatal_same hn
    simp [h, this.trace, this.window, this.params, this.env, this.device, this.replies, this.src, this.agenda,
      this.loaded, this.resetPending, this.tx, this.count]

/-- What a Busy step can do: local computation and then one transport call of a row of R86 that is settled, the end of the
operation, or the fault (R10). -/
theorem blockStep_next {s t : State} (h : blockStepWith runBus s = .next t) :
    (∃ c k s' i d n, nextCall s.rest s = .call c k s' ∧ decodeBus c.word = .ok i ∧ busDescriptor i = some d ∧
      s.window = none ∧
      t = settle (transport (kindOf i) d n { s' with rest := k, tx := c.tx, count := c.count })) ∨
    (∃ s', nextCall s.rest s = .ended s' ∧ t = finish s') ∨
    (∃ s', nextCall s.rest s = .fatal s' ∧ t = raiseFatal .pageBoundary s') := by
  unfold blockStepWith at h
  split at h
  · rename_i c k s' hn
    unfold settleResult at h
    split at h
    · rename_i u hu
      cases h
      obtain ⟨hw, i, d, n, hi, hd, rfl⟩ := issueWith_next hu
      exact .inl ⟨c, k, s', i, d, n, hn, hi, hd, (nextCall_call_same hn).window ▸ hw, rfl⟩
    · cases h
    · cases h
  · cases h; exact .inr (.inl ⟨_, ‹_›, rfl⟩)
  · cases h; exact .inr (.inr ⟨_, ‹_›, rfl⟩)

/-- A Busy step whose local computation leads to the call of a row with its data phase makes that transport call and is
settled. -/
theorem blockStep_of_call {s s' : State} {i : Instr} {d : Descriptor} {tx : List Byte} {n : Nat} {k : List Stmt}
    (hd : busDescriptor i = some d) (hw : s'.window = none) (ha : dataOk i tx n)
    (hn : nextCall s.rest s = .call (busCall i tx n) k s') :
    ∃ m, blockStepWith runBus s =
      .next (settle (transport (kindOf i) d m { s' with rest := k, tx := tx, count := n })) := by
  obtain ⟨m, hm⟩ := runBus_answers (i := i) hd (s := { s' with rest := k, tx := tx, count := n }) hw ha
  exact ⟨m, by simp only [blockStepWith, hn, issueWith_busCall runBus hd, hm, settleResult]⟩

/-- Settling changes nothing where a transport call follows (R10). -/
theorem settle_of_call {s s' : State} {c : Call} {k : List Stmt} (h : nextCall s.rest s = .call c k s') :
    settle s = s := by simp [settle, h]

/-- Settling ends the operation where none follows (R10). -/
theorem settle_of_ended {s s' : State} (h : nextCall s.rest s = .ended s') : settle s = finish s' := by
  simp [settle, h]

/-- An accepted request is a Busy step from the accepted state (R234). -/
theorem request_next {code : BitVec 5} {o : Operands} {body : List Stmt} {s t : State}
    (h : request code o body s = .next t) :
    acceptRefusal o s = none ∧ blockStepWith runBus (accept code o body s) = .next t := by
  unfold request at h
  split at h
  · cases h
  · exact ⟨‹_›, h⟩

/-- Acceptance says the block was Idle and the window not entered (R234). -/
theorem acceptRefusal_none {o : Operands} {s : State} (h : acceptRefusal o s = none) :
    s.ctl = .idle ∧ s.mode ≠ .memoryMapped ∧ operandRefusal o s.src = none := by
  unfold acceptRefusal at h
  split at h
  · cases h
  · cases h
  · split at h
    · cases h
    · exact ⟨‹_›, ‹_›, h⟩

end Sys2Proof.Machine
end

