-- ==== Sys2Proof/Laws/PerInstr.lean ====
section
/-! SUPPORT. The family CodeField: the field by which a decoder finds an instruction holds the code of its row, the opcode
byte of a bus word (R97) or the operation code of a request word (R87), written out from the two tables. -/
namespace Sys2Proof.Laws

/-- The code of a row: the device opcode of R86 or the operation code of R87. -/
def CodeField.code : Instr → Nat
  | .rdid => 0x9F
  | .rsten _ => 0x66
  | .rst _ => 0x99
  | .wren => 0x06
  | .ce => 0xC7
  | .se _ => 0x20
  | .be32 _ => 0x52
  | .be64 _ => 0xD8
  | .qpp _ => 0x32
  | .qread _ => 0x6B
  | .qioread => 0xEB
  | .enqpi => 0x38
  | .srp => 0xC0
  | .rdsr1 _ => 0x05
  | .wrsr1 _ => 0x01
  | .rdcr _ => 0x35
  | .wrcr _ => 0x31
  | .init => 0x01
  | .reset => 0x02
  | .enableQuad => 0x03
  | .enterQpi => 0x04
  | .enterMemoryMap => 0x05
  | .readSr1 => 0x06
  | .writeSr1 _ => 0x07
  | .readCr => 0x08
  | .writeCr _ => 0x09
  | .sectorErase _ => 0x0A
  | .blockErase32k _ => 0x0B
  | .blockErase64k _ => 0x0C
  | .chipErase => 0x0D
  | .pageProgram _ _ => 0x0E
  | .writeRegion _ _ => 0x0F
  | .readIdentify => 0x10
  | .readRegion _ _ => 0x11

/-- The code stands where the decoder looks for it: bits 42:35 of a bus word, bits 4:0 of a request word. -/
def CodeField.Statement (i : Instr) : Prop :=
  match encode i with
  | .bus w => (w.extractLsb' 35 8).toNat = CodeField.code i
  | .host w => (w.extractLsb' 0 5).toNat = CodeField.code i

theorem CodeField.pack_opcode (d : Descriptor) : (d.pack).extractLsb' 35 8 = d.opcode := extract_high _ _

theorem CodeField.rdid : CodeField.Statement .rdid :=
  congrArg BitVec.toNat (CodeField.pack_opcode _)

theorem CodeField.rsten (w : Bool) : CodeField.Statement (.rsten w) :=
  congrArg BitVec.toNat (CodeField.pack_opcode _)

theorem CodeField.rst (w : Bool) : CodeField.Statement (.rst w) :=
  congrArg BitVec.toNat (CodeField.pack_opcode _)

theorem CodeField.wren : CodeField.Statement .wren :=
  congrArg BitVec.toNat (CodeField.pack_opcode _)

theorem CodeField.ce : CodeField.Statement .ce :=
  congrArg BitVec.toNat (CodeField.pack_opcode _)

theorem CodeField.se (a : Addr) : CodeField.Statement (.se a) :=
  congrArg BitVec.toNat (CodeField.pack_opcode _)

theorem CodeField.be32 (a : Addr) : CodeField.Statement (.be32 a) :=
  congrArg BitVec.toNat (CodeField.pack_opcode _)

theorem CodeField.be64 (a : Addr) : CodeField.Statement (.be64 a) :=
  congrArg BitVec.toNat (CodeField.pack_opcode _)

theorem CodeField.qpp (a : Addr) : CodeField.Statement (.qpp a) :=
  congrArg BitVec.toNat (CodeField.pack_opcode _)

theorem CodeField.qread (a : Addr) : CodeField.Statement (.qread a) :=
  congrArg BitVec.toNat (CodeField.pack_opcode _)

theorem CodeField.qioread : CodeField.Statement .qioread :=
  congrArg BitVec.toNat (CodeField.pack_opcode _)

theorem CodeField.enqpi : CodeField.Statement .enqpi :=
  congrArg BitVec.toNat (CodeField.pack_opcode _)

theorem CodeField.srp : CodeField.Statement .srp :=
  congrArg BitVec.toNat (CodeField.pack_opcode _)

theorem CodeField.rdsr1 (q : Bool) : CodeField.Statement (.rdsr1 q) :=
  congrArg BitVec.toNat (CodeField.pack_opcode _)

theorem CodeField.wrsr1 (q : Bool) : CodeField.Statement (.wrsr1 q) :=
  congrArg BitVec.toNat (CodeField.pack_opcode _)

theorem CodeField.rdcr (q : Bool) : CodeField.Statement (.rdcr q) :=
  congrArg BitVec.toNat (CodeField.pack_opcode _)

theorem CodeField.wrcr (q : Bool) : CodeField.Statement (.wrcr q) :=
  congrArg BitVec.toNat (CodeField.pack_opcode _)

theorem CodeField.init : CodeField.Statement .init :=
  congrArg BitVec.toNat (packRequest_op _ _ _ _)

theorem CodeField.reset : CodeField.Statement .reset :=
  congrArg BitVec.toNat (packRequest_op _ _ _ _)

theorem CodeField.enableQuad : CodeField.Statement .enableQuad :=
  congrArg BitVec.toNat (packRequest_op _ _ _ _)

theorem CodeField.enterQpi : CodeField.Statement .enterQpi :=
  congrArg BitVec.toNat (packRequest_op _ _ _ _)

theorem CodeField.enterMemoryMap : CodeField.Statement .enterMemoryMap :=
  congrArg BitVec.toNat (packRequest_op _ _ _ _)

theorem CodeField.readSr1 : CodeField.Statement .readSr1 :=
  congrArg BitVec.toNat (packRequest_op _ _ _ _)

theorem CodeField.writeSr1 (v : Byte) : CodeField.Statement (.writeSr1 v) :=
  congrArg BitVec.toNat (packRequest_op _ _ _ _)

theorem CodeField.readCr : CodeField.Statement .readCr :=
  congrArg BitVec.toNat (packRequest_op _ _ _ _)

theorem CodeField.writeCr (v : Byte) : CodeField.Statement (.writeCr v) :=
  congrArg BitVec.toNat (packRequest_op _ _ _ _)

theorem CodeField.sectorErase (a : Addr) : CodeField.Statement (.sectorErase a) :=
  congrArg BitVec.toNat (packRequest_op _ _ _ _)

theorem CodeField.blockErase32k (a : Addr) : CodeField.Statement (.blockErase32k a) :=
  congrArg BitVec.toNat (packRequest_op _ _ _ _)

theorem CodeField.blockErase64k (a : Addr) : CodeField.Statement (.blockErase64k a) :=
  congrArg BitVec.toNat (packRequest_op _ _ _ _)

theorem CodeField.chipErase : CodeField.Statement .chipErase :=
  congrArg BitVec.toNat (packRequest_op _ _ _ _)

theorem CodeField.pageProgram (a : Addr) (n : Nat) : CodeField.Statement (.pageProgram a n) :=
  congrArg BitVec.toNat (packRequest_op _ _ _ _)

theorem CodeField.writeRegion (a : Addr) (n : Nat) : CodeField.Statement (.writeRegion a n) :=
  congrArg BitVec.toNat (packRequest_op _ _ _ _)

theorem CodeField.readIdentify : CodeField.Statement .readIdentify :=
  congrArg BitVec.toNat (packRequest_op _ _ _ _)

theorem CodeField.readRegion (a : Addr) (n : Nat) : CodeField.Statement (.readRegion a n) :=
  congrArg BitVec.toNat (packRequest_op _ _ _ _)

end Sys2Proof.Laws
end

