-- ==== Sys2Proof/Tests/Slice0.lean ====
section
/-! SUPPORT. The model's own tests. Expected results are the spec's: the words of vector V70 and of R83, the codes of R87, the
traces of the vectors V1 to V68 and of R131, R132, R173 to R179, R200, R217, and the RefFlash table. Last, for every statement
with hypotheses, a witness that they can be met together. -/
namespace Sys2Proof.Tests
open Sys2Proof.Machine Sys2Proof.Safety Sys2Proof.Claims

/-! ### Well-formedness: the one check is the length range of R85, for three instructions -/

theorem test_wellFormed_smoke : Instr.wellFormed (.writeRegion 0 (2 ^ 24)) = true ∧ Instr.wellFormed .rdid = true := by decide

theorem test_wellFormed_pageProgram_refuses : Instr.wellFormed (.pageProgram 0 (2 ^ 24 + 1)) = false := by decide

theorem test_wellFormed_writeRegion_refuses : Instr.wellFormed (.writeRegion 7 (2 ^ 24 + 1)) = false := by decide

theorem test_wellFormed_readRegion_refuses : Instr.wellFormed (.readRegion 0 (2 ^ 25)) = false := by decide

/-! ### Decoding (V70, R83, R87) -/

theorem test_decode_rdid : decodeBus 0x4FA20000000 = .ok .rdid := rfl
theorem test_decode_rsten : decodeBus 0x33200000000 = .ok (.rsten false) ∧ decodeBus 0x33600000000 = .ok (.rsten true) :=
  ⟨rfl, rfl⟩
theorem test_decode_rst : decodeBus 0x4CA00000000 = .ok (.rst false) ∧ decodeBus 0x4CE00000000 = .ok (.rst true) := ⟨rfl, rfl⟩
theorem test_decode_wren : decodeBus 0x03200000000 = .ok .wren := rfl
theorem test_decode_ce : decodeBus 0x63A00000000 = .ok .ce := rfl
theorem test_decode_se : decodeBus 0x10280001234 = .ok (.se 0x001234) := rfl
theorem test_decode_be32 : decodeBus 0x29280008000 = .ok (.be32 0x008000) := rfl
theorem test_decode_be64 : decodeBus 0x6C280FFFFFF = .ok (.be64 0xFFFFFF) := rfl
theorem test_decode_qpp : decodeBus 0x192E0000007 = .ok (.qpp 0x000007) := rfl
theorem test_decode_qread : decodeBus 0x35AE8FFFFFF = .ok (.qread 0xFFFFFF) := rfl
/-- The worked example of V70, bit by bit: opcode 01101011, iw 01, aw 01, dw 11, dummy 01000, address 0. -/
theorem test_decode_qread_bits : decodeBus 0b0110101101011101000000000000000000000000000 = .ok (.qread 0) := rfl
theorem test_decode_qioread : decodeBus 0x75FE8000000 = .ok .qioread := rfl
theorem test_decode_enqpi : decodeBus 0x1C200000000 = .ok .enqpi := rfl
theorem test_decode_srp : decodeBus 0x60660000000 = .ok .srp := rfl
theorem test_decode_rdsr1 : decodeBus 0x02A20000000 = .ok (.rdsr1 false) ∧ decodeBus 0x02E60000000 = .ok (.rdsr1 true) :=
  ⟨rfl, rfl⟩
theorem test_decode_wrsr1 : decodeBus 0x00A20000000 = .ok (.wrsr1 false) ∧ decodeBus 0x00E60000000 = .ok (.wrsr1 true) :=
  ⟨rfl, rfl⟩
theorem test_decode_rdcr : decodeBus 0x1AA20000000 = .ok (.rdcr false) ∧ decodeBus 0x1AE60000000 = .ok (.rdcr true) := ⟨rfl, rfl⟩
theorem test_decode_wrcr : decodeBus 0x18A20000000 = .ok (.wrcr false) ∧ decodeBus 0x18E60000000 = .ok (.wrcr true) := ⟨rfl, rfl⟩
theorem test_decode_init : decodeHost 0x01 = .ok .init := rfl
theorem test_decode_reset : decodeHost 0x02 = .ok .reset := rfl
theorem test_decode_enableQuad : decodeHost 0x03 = .ok .enableQuad := rfl
theorem test_decode_enterQpi : decodeHost 0x04 = .ok .enterQpi := rfl
theorem test_decode_enterMemoryMap : decodeHost 0x05 = .ok .enterMemoryMap := rfl
theorem test_decode_readSr1 : decodeHost 0x06 = .ok .readSr1 := rfl
theorem test_decode_writeSr1 : decodeHost 0x5A0000000000000007 = .ok (.writeSr1 0x5A) := rfl
theorem test_decode_readCr : decodeHost 0x08 = .ok .readCr := rfl
theorem test_decode_writeCr : decodeHost 0xFF0000000000000009 = .ok (.writeCr 0xFF) := rfl
theorem test_decode_sectorErase : decodeHost 0x0012340A = .ok (.sectorErase 0x001234) := rfl
theorem test_decode_blockErase32k : decodeHost 0x0080000B = .ok (.blockErase32k 0x008000) := rfl
theorem test_decode_blockErase64k : decodeHost 0xFFFFFF0C = .ok (.blockErase64k 0xFFFFFF) := rfl
theorem test_decode_chipErase : decodeHost 0x0D = .ok .chipErase := rfl
theorem test_decode_pageProgram : decodeHost 0x20000060E = .ok (.pageProgram 0x000006 2) := rfl
theorem test_decode_writeRegion : decodeHost 0x140000030F = .ok (.writeRegion 0x000003 20) := rfl
theorem test_decode_readIdentify : decodeHost 0x10 = .ok .readIdentify := rfl
theorem test_decode_readRegion : decodeHost 0xC00000411 = .ok (.readRegion 0x000004 12) := rfl

/-- The kinds of R84, of one command each. -/
theorem test_kind_codes : (busKind .wren).map Kind.code = some 0b00 ∧ (busKind (.qpp 0)).map Kind.code = some 0b01 ∧
    (busKind .rdid).map Kind.code = some 0b10 ∧ (busKind .qioread).map Kind.code = some 0b11 := ⟨rfl, rfl, rfl, rfl⟩

/-! ### What decodes to nothing (R82, R83, R90, R91, R97) -/

theorem test_reject_reservedWidth : decodeBus 0x03400000000 = .error .reservedWidth := rfl
theorem test_reject_addressWithoutWidth : decodeBus 0x03200000001 = .error .addressWithoutWidth := rfl
theorem test_reject_unknownOpcode : decodeBus 0x00200000000 = .error .unknownOpcode := rfl
/-- WREN at quad width is no word of the block (D10). -/
theorem test_reject_fieldMismatch : decodeBus 0x03600000000 = .error .fieldMismatch := rfl
/-- A register access needs `iw = dw` (R88). -/
theorem test_reject_mixedWidths : decodeBus 0x02A60000000 = .error .fieldMismatch := rfl
theorem test_reject_code00 : decodeHost 0x00 = .error .unassignedCode := rfl
theorem test_reject_code12 : decodeHost 0x12 = .error .unassignedCode := rfl
theorem test_reject_code1F : decodeHost 0x1F = .error .unassignedCode := rfl
/-- The model's own layout (log entry 11). -/
theorem test_reject_reservedBits : decodeHost 0x21 = .error .reservedBits := rfl
theorem test_reject_strayOperand : decodeHost 0x101 = .error .strayOperand := rfl
theorem test_reject_lengthRange : decodeHost 0x10000010000000F = .error .lengthRange := rfl

/-! ### States to test on -/

/-- The parameters of programs P1 and P2, with a base address for the window. -/
def params : Config.Params where
  sectorSize := 32
  flashSize := 64
  mmapBase := 0x90000000
  readParams := 0x30
  erasedByte := 0xFF
  refId0 := 0xEF
  refId1 := 0x40
  refId2 := 0x17
  bReset := 0
  bErase := 2
  bProg := 1

/-- Idle in SingleWire, with some source bytes. -/
def idle : State := { State.reset with params := params, src := [0xAA, 0xBB, 0xCC] }

/-- The same over RefFlash, whose array is erased but for the byte 0x5A at address 40. -/
def ref : State := { idle with env := .refFlash, device := { State.reset.device with flash := [(40, 0x5A)] } }

/-- The same in QPI (V3, V5, V27, V51, V68). -/
def qpi : State := { idle with mode := .qpi }

/-- In the memory-mapped mode, the array holding `00 .. 07` (V55). -/
def mapped : State :=
  { ref with
    mode := .memoryMapped
    window := some mmapTemplate
    device := { ref.device with
      flash := [(0, 0), (1, 1), (2, 2), (3, 3), (4, 4), (5, 5), (6, 6), (7, 7)] } }

/-- After the fault of P2. -/
def halted : State := { idle with ctl := .halted, op := 0x0E, addr := 6, len := 3, response := .fault .pageBoundary }

/-- An erase that is polling (V61). -/
def polling : State := { idle with ctl := .busy, op := 0x0A, rest := [.testWip], rx := [0x01], replies := [0x01, 0x01, 0x00] }

/-- What a result shows: the state it leads to. -/
def stateOf : Result → Option State
  | .next t => some t
  | .fault _ => none
  | .refused _ => none

/-- The trace a result leads to. -/
def traceOf (r : Result) : Option (List Event) := (stateOf r).map State.trace

/-- Why it was refused, if it was. -/
def refusalOf : Result → Option Refusal
  | .next _ => none
  | .fault _ => none
  | .refused r => some r

/-! ### The bus commands, one step each (R86) -/

theorem test_rdid : traceOf (exec .rdid ref) = some [.rd ⟨0x9F, .single, .none, .single, none, 0⟩ 3 [0xEF, 0x40, 0x17]] := rfl
theorem test_rsten : traceOf (exec (.rsten true) idle) = some [.cmd ⟨0x66, .quad, .none, .none, none, 0⟩] := rfl
theorem test_rst : traceOf (exec (.rst false) idle) = some [.cmd ⟨0x99, .single, .none, .none, none, 0⟩] := rfl
theorem test_wren_in_qpi : traceOf (exec .wren qpi) = some [.cmd ⟨0x06, .single, .none, .none, none, 0⟩] := rfl
theorem test_ce : (stateOf (exec .ce ref)).map (fun t => (t.device.flash, t.device.busy)) = some ([], 2) := rfl
/-- The sector of address 45 is 32 .. 63. -/
theorem test_se : (stateOf (exec (.se 45) ref)).map (fun t => flashAt t 40) = some 0xFF := rfl
theorem test_se_other_sector : (stateOf (exec (.se 31) ref)).map (fun t => flashAt t 40) = some 0x5A := rfl
theorem test_be32 : traceOf (exec (.be32 0x008000) idle) = some [.cmd ⟨0x52, .single, .single, .none, some 0x008000, 0⟩] := rfl
theorem test_be64 : traceOf (exec (.be64 0xFFFFFF) idle) = some [.cmd ⟨0xD8, .single, .single, .none, some 0xFFFFFF, 0⟩] := rfl
theorem test_qpp : (stateOf (exec (.qpp 7) { ref with tx := [0xAA, 0xBB] })).map
    (fun t => [flashAt t 6, flashAt t 7, flashAt t 8, flashAt t 9]) = some [0xFF, 0xAA, 0xBB, 0xFF] := rfl
theorem test_qpp_empty_refused : refusalOf (exec (.qpp 7) ref) = some .dataLength := rfl
theorem test_qread : (stateOf (exec (.qread 39) { ref with count := 3 })).map State.rx = some [0xFF, 0x5A, 0xFF] := rfl
theorem test_qioread : (stateOf (exec .qioread qpi)).map State.window =
    some (some ⟨0xEB, .quad, .quad, .quad, some 0, 8⟩) := rfl
theorem test_enqpi : traceOf (exec .enqpi idle) = some [.cmd ⟨0x38, .single, .none, .none, none, 0⟩] := rfl
theorem test_srp : traceOf (exec .srp { qpi with tx := [0x30] }) =
    some [.wr ⟨0xC0, .quad, .none, .quad, none, 0⟩ [0x30]] := rfl
/-- WIP shows while the device is busy, and a poll counts down. -/
theorem test_rdsr1 : (stateOf (exec (.rdsr1 false) { ref with device := { ref.device with sr1 := 0x02, busy := 1 } })).map
    (fun t => (t.rx, t.device.busy)) = some ([0x03], 0) := rfl
theorem test_wrsr1 : (stateOf (exec (.wrsr1 false) { ref with tx := [0x02] })).map (fun t => t.device.sr1) = some 0x02 := rfl
theorem test_rdcr : traceOf (exec (.rdcr true) { qpi with replies := [0x02] }) =
    some [.rd ⟨0x35, .quad, .none, .quad, none, 0⟩ 1 [0x02]] := rfl
theorem test_wrcr : (stateOf (exec (.wrcr false) { ref with tx := [0x02] })).map (fun t => (t.device.cr, t.tx)) =
    some (0x02, []) := rfl
theorem test_port_armed : refusalOf (exec .wren mapped) = some .memoryMapped := rfl

/-! ### The host operations, one step each -/

/-- The first of the nine events of INIT (P2). -/
theorem test_init : traceOf (exec .init idle) = some [.cmd ⟨0x66, .quad, .none, .none, none, 0⟩] := rfl
/-- The last step of the reset sequence within INIT: WIP reads clear and ENABLE_QUAD reads CR (P3, events 5 and 6). -/
theorem test_init_second_half : traceOf (step
    { polling with op := 0x01, rest := .testWip :: enableQuadBody, rx := [0x02], replies := [0x02] }) =
    some [.rd ⟨0x35, .single, .none, .single, none, 0⟩ 1 [0x02]] := rfl
/-- V13: `mode = QPI` is not cleared, and the poll is quad. -/
theorem test_reset_poll_in_qpi : (stateOf (step
    { polling with mode := .qpi, op := 0x02, rest := waitUntilIdle, rx := [], replies := [0x00] })).map
    (fun t => (t.trace, t.mode, t.ctl)) =
    some ([.rd ⟨0x05, .quad, .none, .quad, none, 0⟩ 1 [0x00]], .qpi, .idle) := rfl
theorem test_reset : traceOf (exec .reset idle) = some [.cmd ⟨0x66, .quad, .none, .none, none, 0⟩] := rfl
/-- V10, `cr = 02`: one transaction, no write. -/
theorem test_enableQuad_set : (stateOf (exec .enableQuad { idle with replies := [0x02] })).map
    (fun t => (t.trace, t.mode, t.ctl)) =
    some ([.rd ⟨0x35, .single, .none, .single, none, 0⟩ 1 [0x02]], .quadRegisterEnabled, .idle) := rfl
/-- R131, `cr = 0xFD` gives a write of `0xFF`. -/
theorem test_enableQuad_writes : traceOf (step
    { polling with op := 0x03, rest := [.testQe, .raiseMode], rx := [0xFD] }) =
    some [.wr ⟨0x31, .single, .none, .single, none, 0⟩ [0xFF]] := rfl
/-- P3: a second ENTER_QPI issues nothing. -/
theorem test_enterQpi_again : (stateOf (exec .enterQpi qpi)).map (fun t => (t.trace, t.ctl, t.response)) =
    some ([], .idle, .done []) := rfl
/-- P3, event 10: the parameter write is quad and the mode is QPI at its end. -/
theorem test_enterQpi_last : (stateOf (step
    { polling with op := 0x04, rest := [.setQpi, .writeRegister opSRP .readParams] })).map
    (fun t => (t.trace, t.mode, t.ctl)) =
    some ([.wr ⟨0xC0, .quad, .none, .quad, none, 0⟩ [0x30]], .qpi, .idle) := rfl
/-- P3, event 12. -/
theorem test_enterMemoryMap : (stateOf (exec .enterMemoryMap qpi)).map (fun t => (t.trace, t.mode, t.window, t.ctl)) =
    some ([.arm ⟨0xEB, .quad, .quad, .quad, some 0, 8⟩], .memoryMapped, some ⟨0xEB, .quad, .quad, .quad, some 0, 8⟩,
      .idle) := rfl
/-- V1. -/
theorem test_readSr1 : (stateOf (exec .readSr1 { idle with replies := [0xA5] })).map (fun t => (t.trace, t.response, t.ctl)) =
    some ([.rd ⟨0x05, .single, .none, .single, none, 0⟩ 1 [0xA5]], .done [0xA5], .idle) := rfl
/-- V6. -/
theorem test_writeSr1 : traceOf (exec (.writeSr1 0x5A) idle) =
    some [.wr ⟨0x01, .single, .none, .single, none, 0⟩ [0x5A]] := rfl
/-- V5. -/
theorem test_readCr : (stateOf (exec .readCr { qpi with replies := [0xFF] })).map (fun t => (t.trace, t.response)) =
    some ([.rd ⟨0x35, .quad, .none, .quad, none, 0⟩ 1 [0xFF]], .done [0xFF]) := rfl
/-- V8. -/
theorem test_writeCr : (stateOf (exec (.writeCr 0) { idle with mode := .quadRegisterEnabled })).map
    (fun t => (t.trace, t.mode)) =
    some ([.wr ⟨0x31, .single, .none, .single, none, 0⟩ [0x00]], .quadRegisterEnabled) := rfl
/-- V21, first and second event. -/
theorem test_sectorErase : traceOf (exec (.sectorErase 0x001234) idle) =
    some [.cmd ⟨0x06, .single, .none, .none, none, 0⟩] := rfl
theorem test_sectorErase_command : traceOf (step { polling with addr := 0x001234, rest := eraseBody (.se 0x001234) |>.drop 1 }) =
    some [.cmd ⟨0x20, .single, .single, .none, some 0x001234, 0⟩] := rfl
/-- V14: `FE` ends the wait, `01` does not. -/
theorem test_wait_ends : (stateOf (step { polling with replies := [0xFE] })).map State.ctl = some .idle := rfl
theorem test_wait_goes_on : (stateOf (step polling)).map (fun t => (t.ctl, t.rest)) = some (.busy, [.testWip]) := rfl
theorem test_blockErase32k : traceOf (exec (.blockErase32k 0x008000) idle) =
    some [.cmd ⟨0x06, .single, .none, .none, none, 0⟩] := rfl
theorem test_blockErase64k : traceOf (exec (.blockErase64k 0xFFFFFF) idle) =
    some [.cmd ⟨0x06, .single, .none, .none, none, 0⟩] := rfl
theorem test_chipErase : traceOf (exec .chipErase idle) = some [.cmd ⟨0x06, .single, .none, .none, none, 0⟩] := rfl
/-- V26: the fault, with an empty trace. -/
theorem test_pageProgram_faults : (stateOf (exec (.pageProgram 6 3) idle)).map
    (fun t => (t.ctl, t.trace, t.response, t.addr, t.len)) = some (.halted, [], .fault .pageBoundary, 6, 3) := rfl
/-- V28: the last byte of the space passes, two bytes there are refused before the check. -/
theorem test_pageProgram_top : traceOf (exec (.pageProgram 0xFFFFFF 1) idle) =
    some [.cmd ⟨0x06, .single, .none, .none, none, 0⟩] ∧
    refusalOf (exec (.pageProgram 0xFFFFFF 2) idle) = some .pastTop := ⟨rfl, rfl⟩
/-- P5: after the first chunk the cursor goes from 3 to 8 and the next write-enable follows. -/
theorem test_writeRegion_advances : (stateOf (step
    { polling with
      op := 0x0F, addr := 3, len := 20, cursor := 3, remaining := 20, srcOff := 0, chunkLen := 5,
      rest := [.testWip, .advance, .chunkLoop], rx := [0x00] })).map
    (fun t => (t.cursor, t.remaining, t.srcOff, t.chunkLen, t.trace)) =
    some (8, 15, 5, 8, [.cmd ⟨0x06, .single, .none, .none, none, 0⟩]) := rfl
theorem test_writeRegion : (stateOf (exec (.writeRegion 7 2) idle)).map (fun t => (t.chunkLen, t.trace)) =
    some (1, [.cmd ⟨0x06, .single, .none, .none, none, 0⟩]) := rfl
/-- V51: single-wire in QPI, zeros returned like any other bytes. -/
theorem test_readIdentify : (stateOf (exec .readIdentify { qpi with replies := [0x00, 0x00, 0x00] })).map
    (fun t => (t.trace, t.response)) =
    some ([.rd ⟨0x9F, .single, .none, .single, none, 0⟩ 3 [0x00, 0x00, 0x00]], .done [0x00, 0x00, 0x00]) := rfl
/-- V52. -/
theorem test_readRegion : (stateOf (exec (.readRegion 5 1) { idle with replies := [0x7E] })).map
    (fun t => (t.trace, t.dst)) =
    some ([.rd ⟨0x6B, .single, .single, .quad, some 5, 8⟩ 1 [0x7E]], [0x7E]) := rfl
/-- V54. -/
theorem test_readRegion_refused : refusalOf (exec (.readRegion 0xFFFFFF 2) idle) = some .pastTop := rfl

/-! ### Acceptance, the window, reset and fetching -/

theorem test_halted_refuses : refusalOf (exec .readSr1 halted) = some .halted := rfl
theorem test_busy_refuses : refusalOf (exec .readIdentify polling) = some .busy := rfl
theorem test_mapped_refuses : refusalOf (exec .reset mapped) = some .memoryMapped := rfl
theorem test_zeroLength_refused : refusalOf (exec (.pageProgram 7 0) idle) = some .zeroLength := rfl
theorem test_shortSource_refused : refusalOf (exec (.writeRegion 0 4) idle) = some .shortSource := rfl
/-- R236: a page that is crossed faults, whatever `Src` holds. -/
theorem test_shortSource_faults : (stateOf (exec (.pageProgram 6 3) { idle with src := [] })).map
    (fun t => (t.ctl, t.trace)) = some (.halted, []) := rfl
/-- Inside the page it runs: the byte that `Src` holds comes first. -/
theorem test_shortSource_runs : (stateOf (exec (.pageProgram 5 2) { idle with src := [0xAA] })).map
    (fun t => (t.ctl, t.trace)) = some (.busy, [.cmd ⟨0x06, .single, .none, .none, none, 0⟩]) ∧
    (payload 0 2 { idle with src := [0xAA] }).head? = some 0xAA := ⟨rfl, rfl⟩
/-- R236: Busy comes before the code, MemoryMapped before the layout of the word. -/
theorem test_order_of_checks : refusalOf (hostRequest exec { word := 0x12, src := [] } polling) = some .busy ∧
    refusalOf (step { mapped with agenda := [.request { word := 0xE1, src := [] }] }) = some .memoryMapped ∧
    refusalOf (step { idle with agenda := [.request { word := 0xE1, src := [] }] }) = some .malformedRequest :=
  ⟨rfl, rfl, rfl⟩
theorem test_unassigned_refused :
    refusalOf (step { mapped with agenda := [.request { word := 0x12, src := [] }] }) = some .unassignedCode := rfl
/-- V55, V56. -/
theorem test_window_loads : (stateOf (step { mapped with agenda := [.load 0x90000000 4] })).map State.loaded =
    some (some 0x03020100) ∧
    (stateOf (step { mapped with agenda := [.load 0x90000001 2] })).map State.loaded = some (some 0x0201) := ⟨rfl, rfl⟩
theorem test_hardwareReset : (stateOf (step { mapped with resetPending := true })).map
    (fun t => (t.mode, t.window, t.ctl, t.trace)) = some (.singleWire, none, .idle, []) := rfl
/-- The first instruction after reset is the one placed: INIT as a request, WREN as a word on the port. -/
theorem test_fetch_request : traceOf (step (State.reset.withFetchWord 8 0x01)) =
    some [.cmd ⟨0x66, .quad, .none, .none, none, 0⟩] := rfl
theorem test_fetch_bus : traceOf (step (State.reset.withFetchWord 48 0x03200000000)) =
    some [.cmd ⟨0x06, .single, .none, .none, none, 0⟩] := rfl
theorem test_fetch_decodes : decodeTableWord 8 0x11 = some (.readRegion 0 0) ∧
    decodeTableWord 48 0x4FA20000000 = some .rdid ∧ decodeTableWord 8 0x12 = none := ⟨rfl, rfl, rfl⟩

/-! ### Witnesses: the hypotheses of every statement that has some can be met together, at the ends of their ranges -/

/-- The invariant holds of the states above. -/
theorem test_inv_idle : Inv idle where
  flash := by decide
  window := rfl
  busy := fun h => absurd h (by decide)
  still := by decide
  port := ⟨rfl, rfl⟩
  ranges := ⟨by decide, by decide, by decide, by decide, by decide, by decide⟩
  halted := by decide

theorem test_inv_ref : Inv ref where
  flash := by decide
  window := rfl
  busy := fun h => absurd h (by decide)
  still := by decide
  port := ⟨rfl, rfl⟩
  ranges := ⟨by decide, by decide, by decide, by decide, by decide, by decide⟩
  halted := by decide

theorem test_inv_qpi : Inv qpi where
  flash := by decide
  window := rfl
  busy := fun h => absurd h (by decide)
  still := by decide
  port := ⟨rfl, rfl⟩
  ranges := ⟨by decide, by decide, by decide, by decide, by decide, by decide⟩
  halted := by decide

theorem test_inv_mapped : Inv mapped where
  flash := by decide
  window := rfl
  busy := fun h => absurd h (by decide)
  still := by decide
  port := ⟨rfl, rfl⟩
  ranges := ⟨by decide, by decide, by decide, by decide, by decide, by decide⟩
  halted := by decide

theorem test_inv_halted : Inv halted where
  flash := by decide
  window := rfl
  busy := fun h => absurd h (by decide)
  still := by decide
  port := ⟨rfl, rfl⟩
  ranges := ⟨by decide, by decide, by decide, by decide, by decide, by decide⟩
  halted := by decide

theorem test_inv_polling : Inv polling where
  flash := by decide
  window := rfl
  busy := fun _ => ⟨by decide, by
    show [Stmt.testWip] ∈ eraseAt (.se 0)
    decide⟩
  still := by decide
  port := ⟨rfl, rfl⟩
  ranges := ⟨by decide, by decide, by decide, by decide, by decide, by decide⟩
  halted := by decide

/-- ENTER_QPI before its parameter write. -/
def entering : State :=
  { idle with ctl := .busy, op := 0x04, rest := [.setQpi, .writeRegister opSRP .readParams], mode := .quadRegisterEnabled }

theorem test_inv_entering : Inv entering where
  flash := by decide
  window := rfl
  busy := fun _ => ⟨by decide, by
    show [Stmt.setQpi, .writeRegister opSRP .readParams] ∈ qpiAt []
    decide⟩
  still := by decide
  port := ⟨rfl, rfl⟩
  ranges := ⟨by decide, by decide, by decide, by decide, by decide, by decide⟩
  halted := by decide

/-- RESET in its last poll. -/
def resetting : State := { idle with ctl := .busy, op := 0x02, rest := [.testWip], rx := [0x01], replies := [0x00] }

theorem test_inv_resetting : Inv resetting where
  flash := by decide
  window := rfl
  busy := fun _ => ⟨by decide, by
    show [Stmt.testWip] ∈ resetAt []
    decide⟩
  still := by decide
  port := ⟨rfl, rfl⟩
  ranges := ⟨by decide, by decide, by decide, by decide, by decide, by decide⟩
  halted := by decide

/-- A WRITE_REGION of `AA BB` at 7, polling after its first chunk. -/
def writing : State :=
  { idle with
    ctl := .busy, op := 0x0F, addr := 7, len := 2, cursor := 7, remaining := 2, chunkLen := 1,
    rest := [.testWip, .advance, .chunkLoop], rx := [0x00], replies := [0x00] }

theorem test_inv_writing : Inv writing where
  flash := by decide
  window := rfl
  busy := fun _ => ⟨by decide, by
    show chunkInv writing ∧
      [Stmt.testWip, .advance, .chunkLoop] ∈ programAt (BitVec.ofNat 24 7) [0xAA] [.advance, .chunkLoop]
    exact ⟨⟨by decide, by decide, by decide, by decide, by decide, by decide⟩, by decide⟩⟩
  still := by decide
  port := ⟨rfl, rfl⟩
  ranges := ⟨by decide, by decide, by decide, by decide, by decide, by decide⟩
  halted := by decide

/-- For RegisterReadOperations, RegisterWriteOperations and IdentifyOperation. -/
theorem test_ready : Ready idle ∧ Ready ref ∧ Ready qpi :=
  ⟨⟨rfl, by decide, rfl⟩, ⟨rfl, by decide, rfl⟩, ⟨rfl, by decide, rfl⟩⟩

theorem test_witness_HardwareResetStep : State.resetPending { mapped with resetPending := true } = true ∧
    State.resetPending { halted with resetPending := true } = true := ⟨rfl, rfl⟩

theorem test_witness_RequestStepRunsInstruction :
    idle.resetPending = false ∧ idle.ctl = .idle ∧ decodeHost 0x01 = .ok .init ∧
    decodeHost 0x12 = .error .unassignedCode := ⟨rfl, rfl, rfl, rfl⟩

theorem test_witness_BusStepRunsInstruction :
    polling.resetPending = false ∧ polling.ctl = .busy ∧
    ∃ c k s', nextCall polling.rest polling = .call c k s' ∧ decodeBus c.word = .ok (.rdsr1 false) :=
  ⟨rfl, rfl, _, _, _, rfl, rfl⟩

theorem test_witness_IllegalBusWordsRejected :
    (0x03400000000 : BusWord).extractLsb' 33 2 = 0b10 ∧ (0x03300000000 : BusWord).extractLsb' 31 2 = 0b10 ∧
    (0x03240000000 : BusWord).extractLsb' 29 2 = 0b10 ∧
    (0x03200000001 : BusWord).extractLsb' 33 2 ≠ 0b10 ∧ (0x03200000001 : BusWord).extractLsb' 31 2 = 0b00 ∧
    (0x03200000001 : BusWord).extractLsb' 29 2 ≠ 0b10 ∧ (0x03200000001 : BusWord).extractLsb' 0 24 ≠ 0 := by decide

theorem test_witness_UnassignedCodesSelectNothing :
    (0x00 : HostWord).extractLsb' 0 5 = 0 ∧ 0x12 ≤ ((0x12 : HostWord).extractLsb' 0 5).toNat ∧
    0x12 ≤ ((0x1F : HostWord).extractLsb' 0 5).toNat := by decide

theorem test_witness_DecodeEncodeAgree :
    decode (.host 0x10000000000000F) = .ok (.writeRegion 0 (2 ^ 24)) ∧
    Instr.wellFormed (.writeRegion 0 (2 ^ 24)) = true ∧ encode (.se 0x001234) = .bus 0x10280001234 := ⟨rfl, rfl, rfl⟩

/-- For PlainCommandsComplete, EraseCommandsComplete and ArmCommandCompletes. -/
theorem test_witness_bus_commands : idle.window = none ∧ ref.window = none ∧ ref.env = .refFlash := ⟨rfl, rfl, rfl⟩

theorem test_witness_PageProgramCommandCompletes :
    ref.env = .refFlash ∧ Memory.wf ref.params ref.device.flash ∧
    State.window { ref with tx := [0xAA] } = none ∧ 1 ≤ ([0xAA] : List Byte).length ∧
    ([1, 2, 3, 4, 5, 6, 7, 8] : List Byte).length ≤ 8 ∧
    (63 : Addr).toNat + 0 < flashBytes ref.params ∧ flashAt ref ((63 : Addr).toNat + 0) = ref.params.erasedByte ∧
    62 < (63 : Addr).toNat := by decide

theorem test_witness_ReadCommandsComplete :
    State.window { idle with count := 1 } = none ∧ 1 ≤ State.count { idle with count := 1 } := by decide

theorem test_witness_RegisterWriteCommandsComplete :
    State.window { idle with tx := [0xFF] } = none ∧ State.tx { idle with tx := [0xFF] } = [0xFF] := ⟨rfl, rfl⟩

theorem test_witness_PortRefusals :
    mapped.window.isSome = true ∧ (busDescriptor (.qpp 0)).isSome = true ∧ idle.window = none ∧ idle.tx.length = 0 ∧
    8 < ([0, 1, 2, 3, 4, 5, 6, 7, 8] : List Byte).length ∧ ([0, 1] : List Byte).length ≠ 1 ∧ idle.count = 0 := by decide

/-- For RegionReadOperation and RegionReadBuffer. -/
theorem test_witness_RegionReadOperation :
    Ready idle ∧ (0xFFFFFF : Addr).toNat + 1 ≤ 2 ^ 24 ∧ Ready ref ∧ ref.env = .refFlash ∧
    (63 : Addr).toNat + 1 ≤ flashBytes ref.params ∧ 2 ^ 24 < (0xFFFFFF : Addr).toNat + 2 :=
  ⟨test_ready.1, by decide, test_ready.2.1, rfl, by decide, by decide⟩

theorem test_witness_EnterMemoryMapRuns : mapped.ctl = .idle ∧ mapped.mode = .memoryMapped ∧ Ready qpi ∧ qpi.qia = true :=
  ⟨rfl, rfl, test_ready.2.2, rfl⟩

/-- A state to launch from, with these replies. -/
def launchpad (replies : List Byte) : State := { idle with replies := replies }

theorem test_launch (replies : List Byte) : Launch (launchpad replies) replies :=
  ⟨⟨rfl, (by decide : Mode.singleWire ≠ .memoryMapped), rfl⟩, rfl, rfl, rfl⟩

theorem test_witness_waits : Waits [] 0xFE ∧ Waits [0x01, 0xFF] 0x00 :=
  ⟨⟨by decide, by decide⟩, ⟨by decide, by decide⟩⟩

theorem test_witness_QuadEnableIdempotent : Ready idle ∧ (0x02 : Byte) &&& 0x02 ≠ 0 ∧ (0xFD : Byte) &&& 0x02 = 0 :=
  ⟨test_ready.1, by decide, by decide⟩

theorem test_witness_EnableQuadRuns :
    Launch (launchpad [0x02, 0x55]) (quadReplies 0x02 0x00 ++ [0x55]) ∧
    Launch (launchpad [0xFD, 0x00]) (quadReplies 0xFD 0x00 ++ []) := ⟨test_launch _, test_launch _⟩

theorem test_witness_EnterQpiRuns :
    Inv qpi ∧ Ready qpi ∧ qpi.qia = true ∧ Launch (launchpad [0x02]) (quadReplies 0x02 0x00 ++ []) ∧
    (launchpad [0x02]).qia = false ∧ Launch (launchpad [0x00, 0x00]) (quadReplies 0x00 0x00 ++ []) :=
  ⟨test_inv_qpi, test_ready.2.2, rfl, test_launch _, rfl, test_launch _⟩

/-- For ResetSequenceRuns and EraseOperationsRun. -/
theorem test_witness_ResetSequenceRuns :
    Launch (launchpad [0x01, 0xFF, 0x00, 0x77]) ([0x01, 0xFF] ++ 0x00 :: [0x77]) ∧ Waits [0x01, 0xFF] 0x00 ∧
    Launch (launchpad [0xFE]) ([] ++ 0xFE :: []) ∧ Waits [] 0xFE :=
  ⟨test_launch _, test_witness_waits.2, test_launch _, test_witness_waits.1⟩

theorem test_witness_InitRuns :
    Launch (launchpad [0xFE, 0x02]) ([] ++ 0xFE :: (quadReplies 0x02 0x00 ++ [])) ∧ Waits [] 0xFE :=
  ⟨test_launch _, test_witness_waits.1⟩

theorem test_witness_PageProgramRuns :
    Launch (launchpad [0xFE]) ([] ++ 0xFE :: []) ∧ Waits [] 0xFE ∧ 3 ≤ (launchpad [0xFE]).src.length ∧
    (5 : Addr).toNat % 8 + 3 ≤ 8 ∧ (0xFFFFFF : Addr).toNat + 1 ≤ 2 ^ 24 ∧ (0xFFFFFF : Addr).toNat % 8 + 1 ≤ 8 :=
  ⟨test_launch _, test_witness_waits.1, by decide, by decide, by decide, by decide⟩

theorem test_witness_PageProgramOfShortSource :
    Launch (launchpad [0xFE]) ([] ++ 0xFE :: []) ∧ Waits [] 0xFE ∧ (0xFFFFF8 : Addr).toNat + 8 ≤ 2 ^ 24 ∧
    (launchpad [0xFE]).src.length < 8 ∧ (0xFFFFF8 : Addr).toNat % 8 + 8 ≤ 8 :=
  ⟨test_launch _, test_witness_waits.1, by decide, by decide, by decide⟩

theorem test_witness_PageProgramFaults :
    Ready idle ∧ (7 : Addr).toNat + 2 ≤ 2 ^ 24 ∧ 8 < (7 : Addr).toNat % 8 + 2 ∧
    (6 : Addr).toNat + 3 ≤ 2 ^ 24 ∧ 8 < (6 : Addr).toNat % 8 + 3 :=
  ⟨test_ready.1, by decide, by decide, by decide, by decide⟩

theorem test_witness_BusyWaitHasNoBound :
    polling.resetPending = false ∧ polling.ctl = .busy ∧ polling.window = none ∧ polling.env = .oracle ∧
    polling.rest = [.testWip] ∧ firstByte polling.rx &&& 0x01 ≠ 0 ∧ polling.replies = [0x01, 0x01] ++ [0x00] ∧
    ∀ b ∈ ([0x01, 0x01] : List Byte), b &&& 0x01 ≠ 0 := by decide

/-- The boundary test of the source: address 7, length 2, two calls. -/
theorem test_witness_WriteRegionRuns :
    Launch (launchpad [0x01, 0x00, 0xFE])
      ((([([0x01], 0x00), ([], 0xFE)] : List (List Byte × Byte)).map (fun w => w.1 ++ [w.2])).flatten ++ []) ∧
    Waits [0x01] 0x00 ∧ Waits [] 0xFE ∧ 2 ≤ (launchpad [0x01, 0x00, 0xFE]).src.length ∧
    (7 : Addr).toNat + 2 ≤ 2 ^ 24 ∧
    ([([0x01], 0x00), ([], 0xFE)] : List (List Byte × Byte)).length = ((7 : Addr).toNat % 8 + 2 + 7) / 8 ∧
    (0xFFFFFF : Addr).toNat + 1 ≤ 2 ^ 24 ∧ 1 = ((0xFFFFFF : Addr).toNat % 8 + 1 + 7) / 8 :=
  ⟨test_launch _, ⟨by decide, by decide⟩, test_witness_waits.1, by decide, by decide, by decide, by decide, by decide⟩

/-- The preconditions of R205 at their ends. -/
theorem test_witness_WriteRegionRuns_refused :
    Ready idle ∧ (0xFFFFFF : Addr).toNat + 2 > 2 ^ 24 ∧ (0 : Addr).toNat + 4 ≤ 2 ^ 24 ∧ idle.src.length < 4 :=
  ⟨test_ready.1, by decide, by decide, by decide⟩

theorem test_witness_WriteRegionNeverFaults :
    (∃ t, exec (.writeRegion 7 2) idle = .next t) ∧ (Inv writing ∧ writing.ctl = .busy ∧ ∃ t, step writing = .next t) ∧
    ∃ t, idle.ctl = .idle ∧ exec (.pageProgram 6 3) idle = .next t ∧ t.ctl = .halted :=
  ⟨⟨_, rfl⟩, ⟨test_inv_writing, rfl, _, rfl⟩, _, rfl, rfl, rfl⟩

theorem test_witness_WriteRegionStoresSource :
    Ready ref ∧ ref.resetPending = false ∧ ref.env = .refFlash ∧ Memory.wf ref.params ref.device.flash ∧
    (61 : Addr).toNat + 3 ≤ flashBytes ref.params ∧ 3 ≤ ref.src.length ∧
    ∀ b, (61 : Addr).toNat ≤ b → b < (61 : Addr).toNat + 3 → flashAt ref b = ref.params.erasedByte := by
  refine ⟨test_ready.2.1, rfl, rfl, by decide, by decide, by decide, fun b h1 h2 => ?_⟩
  have h3 : b = 61 ∨ b = 62 ∨ b = 63 := by simp at h1 h2; omega
  rcases h3 with rfl | rfl | rfl <;> decide

theorem test_witness_RequestsRefusedInOrder :
    (idle.mode ≠ .memoryMapped → idle.window = none) ∧ (mapped.mode ≠ .memoryMapped → mapped.window = none) ∧
    firstFailure idle (some (0xFFFFFF, 1)) = none ∧ firstFailure idle (some (0xFFFFFF, 2)) = some .pastTop ∧
    firstFailure idle (some (7, 0)) = some .zeroLength ∧ firstFailure mapped (some (7, 0)) = some .memoryMapped ∧
    firstFailure polling none = some .busy ∧ firstFailure halted none = some .halted := by decide

/-- After a hardware reset, with INIT as the host's next move and a device that is idle and has Quad-Enable set. -/
def booting : State :=
  hardwareReset { idle with agenda := [.request { word := 0x01, src := [] }], replies := [0x00, 0x02] }

/-- The boots of R262, and an order that is none. -/
theorem test_boots :
    IsBoot [.init] ∧ IsBoot [.reset, .enableQuad] ∧ IsBoot [.reset, .readIdentify, .readCr, .enableQuad] ∧
    ¬ IsBoot [.reset, .chipErase, .enableQuad] := by
  refine ⟨.inl rfl, .inr ⟨[], by decide, rfl⟩, .inr ⟨[.readIdentify, .readCr], by decide, rfl⟩, ?_⟩
  rintro (h | ⟨reads, hr, h⟩)
  · simp at h
  · have : reads = [.chipErase] := by
      simp only [List.cons.injEq, true_and] at h
      exact (List.append_cancel_right (as := [Instr.chipErase]) (bs := [Instr.enableQuad]) h).symm
    exact absurd (hr .chipErase (by simp [this])) (by decide)

theorem test_booting_runs : ∃ t, RunsTo 6 booting t ∧ t.agenda = [] ∧ t.ctl = .idle ∧ t.mode = .quadRegisterEnabled :=
  ⟨_, rfl, rfl, rfl, rfl⟩

theorem test_witness_LaunchedStatesAreQuadEnabled : ∃ t, Launched t ∧ t.mode = .quadRegisterEnabled := by
  obtain ⟨t, ht, hg, hc, hm⟩ := test_booting_runs
  exact ⟨t, ⟨_, t, [.init], 0, .inl rfl,
    ⟨t, ⟨rfl, rfl, hc, { word := 0x01, src := [] }, 6, by rw [hg]; rfl, rfl, ht⟩, rfl⟩, rfl⟩, hm⟩

/-- A run is not over while a request is left, and is over when the last one is refused, but not good (R282). -/
theorem test_runOver :
    runOver { idle with agenda := [.request { word := 0x06, src := [] }] } = false ∧
    goodEnd { idle with agenda := [.request { word := 0x06, src := [] }] } = false ∧
    runOver { idle with agenda := [.request { word := 0x00, src := [] }] } = true ∧
    goodEnd { idle with agenda := [.request { word := 0x00, src := [] }] } = false ∧
    runOver polling = false ∧ runOver halted = true ∧ goodEnd halted = false ∧ goodEnd idle = true :=
  ⟨rfl, rfl, rfl, rfl, rfl, rfl, rfl, rfl⟩

/-- Halted or MemoryMapped with two requests left, each refused: over, not good; loads between them do not count (R282). Idle with
two left of which the second is accepted: not over. -/
theorem test_runOver_two :
    runOver { halted with agenda := [.request { word := 0x06, src := [] }, .request { word := 0x08, src := [] }] } = true ∧
    runOver { mapped with
      agenda := [.request { word := 0x06, src := [] }, .load 0x90000000 4, .request { word := 0x12, src := [] }] } = true ∧
    goodEnd { mapped with
      agenda := [.request { word := 0x06, src := [] }, .load 0x90000000 4, .request { word := 0x12, src := [] }] } = false ∧
    runOver { idle with agenda := [.request { word := 0x00, src := [] }, .request { word := 0x06, src := [] }] } = false :=
  ⟨rfl, rfl, rfl, rfl⟩

theorem test_witness_TerminalStatesEndTheRun :
    halted.resetPending = false ∧ halted.ctl = .halted ∧ mapped.resetPending = false ∧ mapped.ctl = .idle ∧
    mapped.mode = .memoryMapped := ⟨rfl, rfl, rfl, rfl, rfl⟩

theorem test_witness_GoodEndIsFinal :
    goodEnd { mapped with agenda := [.load 0x9000003C 4] } = true ∧
    State.resetPending { mapped with agenda := [.load 0x9000003C 4] } = false ∧
    ∃ t, step { mapped with agenda := [.load 0x9000003C 4] } = .next t := ⟨rfl, rfl, _, rfl⟩

theorem test_witness_MemoryMappedIsTerminal :
    mapped.ctl = .idle ∧ mapped.mode = .memoryMapped ∧ (hostCode .readSr1).isSome = true ∧ Inv mapped ∧
    mapped.resetPending = false ∧ (∃ t, step mapped = .next t) ∧
    ∃ t, step { mapped with agenda := [.load 0x9000003C 4] } = .next t :=
  ⟨rfl, rfl, rfl, test_inv_mapped, rfl, ⟨_, rfl⟩, _, rfl⟩

theorem test_witness_HaltedIsSticky :
    halted.resetPending = false ∧ halted.ctl = .halted ∧ (hostCode .init).isSome = true ∧ ∃ t, step halted = .next t :=
  ⟨rfl, rfl, rfl, _, rfl⟩

theorem test_witness_WindowLoadIsLittleEndian :
    mapped.resetPending = false ∧ mapped.ctl ≠ .busy ∧ mapped.window.isSome = true ∧
    State.agenda { mapped with agenda := [.load (mapped.params.mmapBase + 60) 4] } =
      .load (mapped.params.mmapBase + 60) 4 :: [] ∧
    60 + 4 ≤ flashBytes mapped.params ∧ 0 + 1 ≤ flashBytes mapped.params := by decide

theorem test_witness_WindowLoadStops :
    idle.window = none ∧ idle.ctl ≠ .busy ∧ mapped.window.isSome = true ∧
    mapped.params.mmapBase - 1 < mapped.params.mmapBase ∧
    mapped.params.mmapBase + flashBytes mapped.params < mapped.params.mmapBase + 61 + 4 := by decide

/-- For the statements about one step (EveryStepKeepsInvariant, ModeIsMonotone, OnlyTableCommandsAreIssued, TraceIsGhostState,
ParametersAndSourceAreFixed): a Busy, an Idle, a Halted and a mapped state. -/
theorem test_witness_invariant_steps :
    (Inv polling ∧ ∃ t, step polling = .next t) ∧ (Inv idle ∧ ∃ t, step idle = .next t) ∧
    (Inv halted ∧ ∃ t, step halted = .next t) ∧ (Inv mapped ∧ ∃ t, step mapped = .next t) ∧
    (Inv writing ∧ ∃ t, step writing = .next t) :=
  ⟨⟨test_inv_polling, _, rfl⟩, ⟨test_inv_idle, _, rfl⟩, ⟨test_inv_halted, _, rfl⟩, ⟨test_inv_mapped, _, rfl⟩,
    ⟨test_inv_writing, _, rfl⟩⟩

theorem test_witness_BusyBlockIsNeverStuck : Inv polling ∧ polling.ctl = .busy ∧ polling.resetPending = false :=
  ⟨test_inv_polling, rfl, rfl⟩

theorem test_witness_ModeIsMonotone :
    (∃ t, exec .reset qpi = .next t) ∧ Inv resetting ∧ resetting.ctl = .busy ∧ resetting.op = 0x02 ∧
    ∃ t, step resetting = .next t := ⟨⟨_, rfl⟩, test_inv_resetting, rfl, rfl, _, rfl⟩

theorem test_witness_QuadInterfaceFlag :
    Inv entering ∧ entering.qia = false ∧ (∃ t, step entering = .next t ∧ t.qia = true) ∧
    Inv mapped ∧ mapped.qia = true ∧ ∃ t, step mapped = .next t :=
  ⟨test_inv_entering, rfl, ⟨_, rfl, rfl⟩, test_inv_mapped, rfl, _, rfl⟩

/-- A run that starts WRITE_REGION, and one that faults: the premises of ReachableStateInvariants and WriteEnableAdjacency. -/
theorem test_witness_runs :
    Inv { idle with agenda := [.request { word := 0x20000070F, src := [0xAA, 0xBB] }] } ∧
    phaseOf .calm idle.trace = some .calm ∧ TraceFacts idle ∧
    (∃ t, RunsTo 2 { idle with agenda := [.request { word := 0x20000070F, src := [0xAA, 0xBB] }] } t ∧ t.ctl = .busy ∧
      t.op = 0x0F) ∧
    ∃ t, RunsTo 1 { idle with agenda := [.request { word := 0x30000060E, src := [1, 2, 3] }] } t ∧ t.ctl = .halted := by
  refine ⟨⟨by decide, rfl, fun h => absurd h (by decide), by decide, ⟨rfl, rfl⟩, ⟨by decide, by decide, by decide, by decide, by decide,
    by decide⟩, by decide⟩, rfl, ⟨by decide, by decide⟩, ⟨_, rfl, rfl, rfl⟩, _, rfl, rfl⟩

theorem test_witness_ReachableStateInvariants_qia :
    TraceFacts { qpi with trace := [bare 0x38 .single, writeEnable] } :=
  ⟨fun _ => List.Sublist.refl _, by decide⟩

theorem test_witness_NoProgramCrossesPage :
    Inv polling ∧ (∃ t, step polling = .next t) ∧ (∀ e ∈ polling.trace, PageSafe e) ∧
    PageSafe (program 5 [1, 2, 3]) ∧ ¬ PageSafe (program 6 [1, 2, 3]) :=
  ⟨test_inv_polling, ⟨_, rfl⟩, by simp [polling, idle, State.reset], fun _ => by decide,
    fun h => absurd (h rfl) (by decide)⟩

theorem test_witness_SingleWireLooksLikeQuadRegister : idle.mode = .singleWire ∧ ∃ t, RunsTo 1 idle t :=
  ⟨rfl, _, rfl⟩

theorem test_witness_IdleRegistersDoNotMatter :
    Inv idle ∧ idle.ctl = .idle ∧ AgreeOutsideRegisters idle { idle with cursor := 9, addr := 3, value := 7, op := 0x1F } ∧
    ∃ t, RunsTo 1 idle t := ⟨test_inv_idle, rfl, rfl, _, rfl⟩

theorem test_witness_FlashChangesOnlyByEvent :
    ref.env = .refFlash ∧ Memory.wf ref.params ref.device.flash ∧
    (∃ t, step { ref with ctl := .busy, op := 0x0A, addr := 45, rest := .issue (busCall (.se 45) [] 0) :: waitUntilIdle } =
      .next t ∧ flashAt t 40 ≠ flashAt ref 40) ∧
    touches ref.params (aimed 0x20 45) 32 ∧ touches ref.params (aimed 0x20 45) 63 ∧
    touches ref.params (program 7 [1]) 7 := by
  refine ⟨rfl, by decide, ⟨_, rfl, ?_⟩, ?_, ?_, ?_⟩
  · show (0xFF : Byte) ≠ 0x5A
    decide
  · exact .inl ⟨rfl, by decide, by decide⟩
  · exact .inl ⟨rfl, by decide, by decide⟩
  · exact ⟨rfl, by decide, by decide⟩

theorem test_witness_ReferenceDeviceRegisters :
    State.env { ref with tx := [0x02] } = .refFlash ∧ State.window { ref with tx := [0x02] } = none ∧
    State.tx { ref with tx := [0x02] } = [0x02] ∧ 1 ≤ State.count { ref with count := 2 } ∧
    (62 : Addr).toNat + State.count { ref with count := 2 } ≤ flashBytes ref.params ∧
    ([1, 2, 3, 4, 5, 6, 7, 8] : List Byte).length ≤ 8 := ⟨rfl, rfl, rfl, by decide, by decide, by decide⟩

end Sys2Proof.Tests
end

/-! PROOFS. Scope (spec/00_scope.md). The layer every later proof about a step stands on: what a step is in each control
state, what a move of the host can do, that every instruction is a bus command or a request, and what no instruction
touches. Then the statements of the scope family. -/
namespace Sys2Proof.Machine
open Sys2Proof.Claims

/-! ### What a step is (R10, R12, R260) -/

/-- A pending hardware reset comes first (R260). -/
theorem step_of_resetPending {s : State} (hr : s.resetPending = true) : step s = .next (hardwareReset s) := by
  simp [step, stepWith, hr]

/-- A Busy block makes its next transport call (R10). -/
theorem step_of_busy {s : State} (hr : s.resetPending = false) (hb : s.ctl = .busy) :
    step s = blockStepWith runBus s := by
  rw [← blockStepWith_exec]
  simp [step, stepWith, hr, hb]

/-- Otherwise the host makes its next move (R12). -/
theorem step_of_not_busy {s : State} (hr : s.resetPending = false) (hb : s.ctl ≠ .busy) :
    step s = hostMove exec s := by
  cases hc : s.ctl with
  | busy => exact absurd hc hb
  | idle => simp [step, stepWith, hr, hc]
  | halted => simp [step, stepWith, hr, hc]

/-- What a step that answers can be: hardware reset, a step of a Busy block, or a move of the host. -/
theorem step_next {s t : State} (h : step s = .next t) :
    (s.resetPending = true ∧ t = hardwareReset s) ∨
    (s.resetPending = false ∧ s.ctl = .busy ∧ blockStepWith runBus s = .next t) ∨
    (s.resetPending = false ∧ s.ctl ≠ .busy ∧ hostMove exec s = .next t) := by
  cases hr : s.resetPending with
  | true =>
    rw [step_of_resetPending hr] at h
    cases h
    exact .inl ⟨rfl, rfl⟩
  | false =>
    by_cases hb : s.ctl = .busy
    · exact .inr (.inl ⟨rfl, hb, step_of_busy hr hb ▸ h⟩)
    · exact .inr (.inr ⟨rfl, hb, step_of_not_busy hr hb ▸ h⟩)

/-! ### What a move of the host can do (R12, R217, R249) -/

/-- A request to an Idle block whose word is an operation runs it over the request's bytes (R56). -/
theorem hostRequest_ok {run : Instr → State → Result} {r : Request} {s : State} {i : Instr} (hc : s.ctl = .idle)
    (hi : decodeHost r.word = .ok i) : hostRequest run r s = run i { s with src := r.src } := by
  simp [hostRequest, hc, hi]

/-- A request to an Idle block whose word is no operation is refused under the decoder's reason (R91). -/
theorem hostRequest_error {run : Instr → State → Result} {r : Request} {s : State} {e : DecodeError}
    (hc : s.ctl = .idle) (he : decodeHost r.word = .error e) :
    hostRequest run r s = .refused (decodeRefusal s.mode e) := by
  simp [hostRequest, hc, he]

/-- Only an Idle block answers a request, and only one whose word is an operation (R234). -/
theorem hostRequest_next {run : Instr → State → Result} {r : Request} {s t : State}
    (h : hostRequest run r s = .next t) :
    s.ctl = .idle ∧ ∃ i, decodeHost r.word = .ok i ∧ run i { s with src := r.src } = .next t := by
  unfold hostRequest at h
  split at h
  · cases h
  · cases h
  · split at h
    · cases h
    · exact ⟨‹_›, _, ‹_›, h⟩

/-- A window load that answers lies inside the armed window and gives the host its word (R55, R57, R217). -/
theorem mmapLoad_next {address k : Nat} {s t : State} (h : mmapLoad address k s = .next t) :
    s.window.isSome = true ∧ k ≠ 0 ∧ s.params.mmapBase ≤ address ∧
    address + k ≤ s.params.mmapBase + flashBytes s.params ∧
    t = { s with
      loaded := some (littleEndian (Memory.readBytes s.params s.device.flash (address - s.params.mmapBase) k)) } := by
  unfold mmapLoad at h
  split at h
  · cases h
  split at h
  · cases h
  split at h
  · cases h
  cases h
  exact ⟨by simpa [Option.isSome_iff_ne_none] using ‹¬ s.window.isNone = true›, ‹_›, by omega, by omega, rfl⟩

/-- What a move of the host that answers can be: none is left, a request that is decoded and run, or a window load. -/
theorem hostMove_next {run : Instr → State → Result} {s t : State} (h : hostMove run s = .next t) :
    (s.agenda = [] ∧ t = s) ∨
    (∃ r ms i, s.agenda = .request r :: ms ∧ s.ctl = .idle ∧ decodeHost r.word = .ok i ∧
      run i { s with agenda := ms, src := r.src } = .next t) ∨
    (∃ address k ms, s.agenda = .load address k :: ms ∧ mmapLoad address k { s with agenda := ms } = .next t) := by
  unfold hostMove at h
  split at h
  · cases h; exact .inl ⟨‹_›, rfl⟩
  · obtain ⟨hc, i, hi, hrun⟩ := hostRequest_next h
    exact .inr (.inl ⟨_, _, i, ‹_›, hc, hi, hrun⟩)
  · exact .inr (.inr ⟨_, _, _, ‹_›, h⟩)

/-! ### Every instruction is a bus command or a request (R80) -/

/-- The operands and the pseudocode of a host operation (R87, files 41 to 45), found by its operation code: exec of it is
a request. -/
theorem exec_request {i : Instr} {code : BitVec 5} (h : hostCode i = some code) :
    ∃ o body, ∀ s, exec i s = request code o body s := by
  cases i <;> cases h <;> exact ⟨_, _, fun _ => rfl⟩

/-- An instruction has a row of R86 or a code of R87. -/
theorem busDescriptor_or_hostCode (i : Instr) : (∃ d, busDescriptor i = some d) ∨ ∃ code, hostCode i = some code := by
  cases i <;> simp [busDescriptor, hostCode]

end Sys2Proof.Machine

namespace Sys2Proof.Claims
open Sys2Proof.Machine

/-! ### What no instruction touches (`Claims.Kept`) -/

theorem Kept.trans {s t u : State} (h : Kept s t) (h' : Kept t u) : Kept s u :=
  ⟨h'.src.trans h.src, h'.loaded.trans h.loaded, h'.agenda.trans h.agenda, h'.resetPending.trans h.resetPending,
    h'.env.trans h.env, h'.params.trans h.params⟩

theorem Kept.of_sameOutside {s t : State} (h : SameOutside s t) : Kept s t :=
  ⟨h.src, h.loaded, h.agenda, h.resetPending, h.env, h.params⟩

theorem finish_kept (s : State) : Kept s (finish s) := by constructor <;> simp

theorem raiseFatal_kept (c : Cause) (s : State) : Kept s (raiseFatal c s) := by constructor <;> simp

theorem transport_kept (k : Kind) (d : Descriptor) (n : Nat) (s : State) : Kept s (transport k d n s) := by
  constructor <;> simp

theorem accept_kept (code : BitVec 5) (o : Operands) (body : List Stmt) (s : State) : Kept s (accept code o body s) := by
  cases o <;> constructor <;> rfl

theorem settle_kept (s : State) : Kept s (settle s) := by
  rcases settle_cases s with ⟨h, -⟩ | ⟨t, hn, h⟩ | ⟨t, hn, h⟩ <;> rw [h]
  · exact .of_sameOutside (.refl s)
  · exact .trans (.of_sameOutside (nextCall_ended_same hn)) (finish_kept t)
  · exact .trans (.of_sameOutside (nextCall_fatal_same hn)) (raiseFatal_kept _ t)

/-- A step of a Busy block, whichever of its three ends it has. -/
theorem blockStep_kept {s t : State} (h : blockStepWith runBus s = .next t) : Kept s t := by
  rcases blockStep_next h with ⟨c, k, s', i, d, n, hn, -, -, -, rfl⟩ | ⟨s', hn, rfl⟩ | ⟨s', hn, rfl⟩
  · have hcall : Kept s' { s' with rest := k, tx := c.tx, count := c.count } := ⟨rfl, rfl, rfl, rfl, rfl, rfl⟩
    exact (Kept.of_sameOutside (nextCall_call_same hn)).trans
      (hcall.trans ((transport_kept _ _ _ _).trans (settle_kept _)))
  · exact .trans (.of_sameOutside (nextCall_ended_same hn)) (finish_kept s')
  · exact .trans (.of_sameOutside (nextCall_fatal_same hn)) (raiseFatal_kept _ s')

/-- No instruction touches the host's buffer `Src`, its moves, the environment or the parameters (R6, R56). -/
theorem exec_kept {i : Instr} {s t : State} (h : exec i s = .next t) : Kept s t := by
  rcases busDescriptor_or_hostCode i with ⟨d, hd⟩ | ⟨code, hc⟩
  · rw [← runBus_eq_exec hd] at h
    obtain ⟨-, d', n, -, rfl⟩ := runBus_next h
    exact transport_kept _ _ _ _
  · obtain ⟨o, body, hreq⟩ := exec_request hc
    obtain ⟨-, hstep⟩ := request_next (hreq s ▸ h)
    exact (accept_kept code o body s).trans (blockStep_kept hstep)

end Sys2Proof.Claims

namespace Sys2Proof.Proofs
open Sys2Proof.Machine Sys2Proof.Safety Sys2Proof.Claims

/-- Settles O4: a request is a move of the host, and an Idle block's answer to it is by its decoded word. -/
theorem requestStepRunsInstruction : Obligations.RequestStepRunsInstruction := by
  intro s r ms hr hc ha
  have hstep : step s = hostRequest exec r { s with agenda := ms } := by
    rw [step_of_not_busy hr (by simp [hc])]
    simp [hostMove, ha]
  exact ⟨fun i hi => hstep.trans (hostRequest_ok hc hi), fun e he => hstep.trans (hostRequest_error hc he)⟩

/-- Settles O5: a Busy step is the call local computation leads to, and the port runs the command its word decodes to. -/
theorem busStepRunsInstruction : Obligations.BusStepRunsInstruction := by
  intro s s' c k i hr hb hn hi
  rw [step_of_busy hr hb, ← blockStepWith_exec]
  simp only [blockStepWith, hn, issueWith, hi]

/-- Settles O51, by what a step can be: hardware reset and a window load name what they change, and every other step is an
instruction or a Busy step, which keep `Kept`. -/
theorem parametersAndSourceAreFixed : Obligations.ParametersAndSourceAreFixed := by
  intro s t h
  rcases step_next h with ⟨-, rfl⟩ | ⟨-, -, hstep⟩ | ⟨-, hb, hmove⟩
  · simp
  · have hk := blockStep_kept hstep
    exact ⟨hk.params, hk.env, fun _ => hk.src⟩
  · suffices t.params = s.params ∧ t.env = s.env from ⟨this.1, this.2, fun hbusy => absurd hbusy hb⟩
    rcases hostMove_next hmove with ⟨-, rfl⟩ | ⟨r, ms, i, -, -, -, hrun⟩ | ⟨address, k, ms, -, hload⟩
    · exact ⟨rfl, rfl⟩
    · exact ⟨(exec_kept hrun).params, (exec_kept hrun).env⟩
    · obtain ⟨-, -, -, -, rfl⟩ := mmapLoad_next hload
      exact ⟨rfl, rfl⟩

end Sys2Proof.Proofs

/-! PROOFS. Local computation that cannot go wrong: a position is `Sound` when each transport call it can reach is a call of
a row of R86 with the data phase the row wants, and no page program in it crosses a page. The statements a call leaves
behind are Sound again, and every position of the invariant is Sound, so a Busy step is answered and never faults (R13,
R23, R114). -/
namespace Sys2Proof.Machine
open Sys2Proof.Safety

/-! ### Calls the port answers -/

/-- A call of a row of R86 with the data phase that row wants: what an unarmed port answers. -/
def Call.ofRow (c : Call) : Prop :=
  ∃ i d tx n, c = busCall i tx n ∧ busDescriptor i = some d ∧ dataOk i tx n

theorem ofRow_busCall {i : Instr} {d : Descriptor} {tx : List Byte} {n : Nat} (hd : busDescriptor i = some d)
    (ha : dataOk i tx n) : (busCall i tx n).ofRow := ⟨i, d, tx, n, rfl, hd, ha⟩

/-- A command without a data phase (R110). -/
theorem ofRow_command {i : Instr} (h : busKind i = some .command) : (busCall i [] 0).ofRow := by
  cases i <;> cases h <;> exact ofRow_busCall rfl trivial

/-- A page program of one byte up to a page (R111, R177). -/
theorem ofRow_qpp {a : Addr} {tx : List Byte} (h1 : 1 ≤ tx.length) (h2 : tx.length ≤ Config.pageSize) :
    (busCall (.qpp a) tx 0).ofRow := ofRow_busCall rfl ⟨h1, h2⟩

theorem ofRow_registerRead {op : Byte} (h : op = opRDSR1 ∨ op = opRDCR) (s : State) : (registerCall op [] s).ofRow := by
  rcases h with rfl | rfl
  · exact ofRow_busCall (i := .rdsr1 s.qia) rfl trivial
  · exact ofRow_busCall (i := .rdcr s.qia) rfl trivial

/-- A register write of one byte; SRP only where `qia` is set, as its row is quad (R88, R132). -/
theorem ofRow_registerWrite {op : Byte} {s : State} (h : op = opWRSR1 ∨ op = opWRCR ∨ op = opSRP ∧ s.qia = true)
    (v : Byte) : (registerCall op [v] s).ofRow := by
  rcases h with rfl | rfl | ⟨rfl, hq⟩
  · exact ofRow_busCall (i := .wrsr1 s.qia) rfl rfl
  · exact ofRow_busCall (i := .wrcr s.qia) rfl rfl
  · rw [registerCall_srp _ hq]
    exact ofRow_busCall (i := .srp) rfl rfl

/-! ### The page check and the chunk law (R177, R201) -/

/-- What stays inside its page is no longer than one. -/
theorem le_pageSize_of_not_crossesPage {a : Addr} {n : Nat} (h : crossesPage a n = false) : n ≤ Config.pageSize := by
  simp only [crossesPage, decide_eq_false_iff_not] at h
  omega

/-- A chunk has at least one byte (R201). -/
theorem chunkLength_pos {c r : Nat} (h : 0 < r) : 1 ≤ chunkLength c r := by
  simp only [chunkLength, Config.pageSize]
  omega

theorem chunkLength_le_pageSize (c r : Nat) : chunkLength c r ≤ Config.pageSize := by
  simp only [chunkLength]
  omega

/-- A chunk stays inside its page, so the chunker never faults (R202, R207). -/
theorem chunk_not_crossesPage (c r : Nat) : crossesPage (BitVec.ofNat 24 c) (chunkLength c r) = false := by
  simp only [crossesPage, chunkLength, Config.pageSize, BitVec.toNat_ofNat, decide_eq_false_iff_not]
  omega

/-- A page program inside its page makes its write-enable call (R177). -/
theorem pageProgramAct_inside {a : Addr} {n : Nat} (h : crossesPage a n = false) (off : Nat) (k : List Stmt)
    (s : State) :
    pageProgramAct a n off k s = .call (busCall .wren [] 0)
      (.issue (busCall (.qpp a) (payload off n s) 0) :: (waitUntilIdle ++ k)) (takePayload off n s) := by
  simp [pageProgramAct, h]

/-! ### Sound statements -/

/-- A statement that makes no call the port would refuse and raises no fault, in a state where `qia` is set if `q` is. -/
def Stmt.sound (q : Bool) : Stmt → Prop
  | .issue c => c.ofRow
  | .readRegister op => op = opRDSR1 ∨ op = opRDCR
  | .writeRegister op _ => op = opWRSR1 ∨ op = opWRCR ∨ op = opSRP ∧ q = true
  | .pageProgram a n _ => 1 ≤ n ∧ crossesPage a n = false
  | .testQe | .raiseMode | .enterQpi | .setQpi | .setMapped | .testWip | .startChunks | .chunkLoop | .advance
  | .returnBytes | .storeDst => True

/-- What is known of `qia` after a statement, `q` being known before it. -/
def Stmt.qiaAfter (q : Bool) : Stmt → Bool
  | .setQpi | .setMapped | .enterQpi => true
  | .issue _ | .readRegister _ | .writeRegister _ _ | .testQe | .raiseMode | .testWip | .pageProgram _ _ _ | .startChunks
  | .chunkLoop | .advance | .returnBytes | .storeDst => q

/-- A position all of whose statements are sound where they stand. -/
def Sound : Bool → List Stmt → Prop
  | _, [] => True
  | q, st :: k => st.sound q ∧ Sound (st.qiaAfter q) k

@[simp] theorem sound_nil (q : Bool) : Sound q [] := trivial

@[simp] theorem sound_cons (q : Bool) (st : Stmt) (k : List Stmt) :
    Sound q (st :: k) ↔ st.sound q ∧ Sound (st.qiaAfter q) k := Iff.rfl

@[simp] theorem sound_waitUntilIdle (q : Bool) (k : List Stmt) : Sound q (waitUntilIdle ++ k) ↔ Sound q k := by
  simp [waitUntilIdle, Stmt.sound, Stmt.qiaAfter]

/-- The rest of a page program after its write-enable. -/
theorem sound_programRest {a : Addr} {tx : List Byte} {q : Bool} {k : List Stmt} (h1 : 1 ≤ tx.length)
    (h2 : tx.length ≤ Config.pageSize) (hk : Sound q k) :
    Sound q (.issue (busCall (.qpp a) tx 0) :: (waitUntilIdle ++ k)) :=
  ⟨ofRow_qpp h1 h2, (sound_waitUntilIdle q k).mpr hk⟩

/-- ENTER_QPI after ENABLE_QUAD: the parameter write stands after `mode <- QPI` (R132). -/
theorem sound_qpiTail (q : Bool) {k : List Stmt} (hk : Sound true k) : Sound q (qpiTail k) :=
  ⟨ofRow_command rfl, ofRow_command rfl, trivial, .inr (.inr ⟨rfl, rfl⟩), hk⟩

/-! ### What sound statements do -/

/-- What the act of a statement has to be: local, or a call the port answers with sound statements left behind it, and
never the fault; and what is known of `qia` has to stay true. -/
def ActSound (q : Bool) (st : Stmt) (s : State) : Act → Prop
  | .skip t => st.qiaAfter q = true → t.qia = true
  | .call c before t => c.ofRow ∧ t.qia = s.qia ∧ ∀ k, Sound (st.qiaAfter q) k → Sound q (before ++ k)
  | .fatal _ => False

theorem pageProgramAct_sound {q : Bool} {st : Stmt} (hst : st.qiaAfter q = q) {a : Addr} {n off : Nat} {k : List Stmt}
    {s s' : State} (h1 : 1 ≤ n) (h2 : crossesPage a n = false) (hk : ∀ k', Sound q k' → Sound q (k ++ k'))
    (hs : s'.qia = s.qia) : ActSound q st s (pageProgramAct a n off k s') := by
  rw [pageProgramAct_inside h2]
  refine ⟨ofRow_command rfl, hs, fun k' hk' => ?_⟩
  rw [hst] at hk'
  rw [List.cons_append, List.append_assoc]
  exact sound_programRest (by simpa using h1) (by simpa using le_pageSize_of_not_crossesPage h2) (hk k' hk')

/-- The act of a sound statement is one. -/
theorem act_sound {q : Bool} {st : Stmt} {s : State} (h : st.sound q) (hq : q = true → s.qia = true) :
    ActSound q st s (act st s) := by
  cases st with
  | issue c => exact ⟨h, rfl, fun _ hk => hk⟩
  | readRegister op => exact ⟨ofRow_registerRead h s, rfl, fun _ hk => hk⟩
  | writeRegister op v =>
    exact ⟨ofRow_registerWrite (h.imp_right (Or.imp_right (And.imp_right hq))) _, rfl, fun _ hk => hk⟩
  | testQe =>
    simp only [act]
    split
    · exact hq
    · exact ⟨ofRow_registerWrite (.inr (.inl rfl)) _, rfl, fun _ hk => ⟨.inl rfl, .inl rfl, hk⟩⟩
  | raiseMode =>
    simp only [act]
    split
    · intro hqa
      have := hq hqa
      simp_all [State.qia, Mode.quadActive]
    · exact hq
  | enterQpi =>
    simp only [act]
    split
    · exact fun _ => ‹_›
    · exact ⟨ofRow_registerRead (.inr rfl) s, rfl, fun _ hk => ⟨trivial, trivial, sound_qpiTail q hk⟩⟩
  | setQpi => exact fun _ => rfl
  | setMapped => exact fun _ => rfl
  | testWip =>
    simp only [act]
    split
    · exact ⟨ofRow_registerRead (.inl rfl) s, rfl, fun _ hk => ⟨trivial, hk⟩⟩
    · exact hq
  | pageProgram a n off => exact pageProgramAct_sound rfl h.1 h.2 (fun _ hk => hk) rfl
  | startChunks => exact hq
  | chunkLoop =>
    simp only [act]
    split
    · exact hq
    · exact pageProgramAct_sound rfl (chunkLength_pos (by omega)) (chunk_not_crossesPage _ _)
        (fun _ hk => ⟨trivial, trivial, hk⟩) rfl
  | advance => exact hq
  | returnBytes => exact hq
  | storeDst => exact hq

/-- A Sound position, with what is known of `qia` true of the state. -/
def SoundAt (k : List Stmt) (s : State) : Prop := ∃ q, Sound q k ∧ (q = true → s.qia = true)

/-- Local computation from a Sound position ends the operation, or leads to a call the port answers with a Sound position
behind it; it never faults. -/
theorem nextCall_sound {k : List Stmt} {s : State} (h : SoundAt k s) :
    (∃ t, nextCall k s = .ended t) ∨
    ∃ c k' t, nextCall k s = .call c k' t ∧ c.ofRow ∧ SoundAt k' t := by
  induction k generalizing s with
  | nil => exact .inl ⟨s, rfl⟩
  | cons st k ih =>
    obtain ⟨q, ⟨hst, hk⟩, hq⟩ := h
    have hact := act_sound hst hq
    simp only [nextCall]
    cases ha : act st s with
    | skip t =>
      rw [ha] at hact
      exact ih ⟨_, hk, hact⟩
    | call c before t =>
      rw [ha] at hact
      obtain ⟨hc, hqia, hbefore⟩ := hact
      exact .inr ⟨c, before ++ k, t, rfl, hc, q, hbefore k hk, hqia ▸ hq⟩
    | fatal t =>
      rw [ha] at hact
      exact hact.elim

/-- Settling at a Sound position goes on or ends the operation (R10). -/
theorem settle_sound {s : State} (h : SoundAt s.rest s) : (settle s).ctl = s.ctl ∨ (settle s).ctl = .idle := by
  rcases nextCall_sound h with ⟨t, hn⟩ | ⟨c, k, t, hn, -⟩
  · exact .inr (by simp [settle_of_ended hn])
  · exact .inl (by simp [settle_of_call hn])

/-- From a Sound position and with the port unarmed, a step of the block is answered, and it goes on or ends Idle (R13,
R114). -/
theorem blockStep_sound {s : State} (h : SoundAt s.rest s) (hw : s.window = none) :
    ∃ t, blockStepWith runBus s = .next t ∧ (t.ctl = s.ctl ∨ t.ctl = .idle) := by
  rcases nextCall_sound h with ⟨t, hn⟩ | ⟨_, k, t, hn, ⟨i, d, tx, n, rfl, hd, ha⟩, q, hk, hq⟩
  · exact ⟨finish t, by simp [blockStepWith, hn], .inr rfl⟩
  · have hsame := nextCall_call_same hn
    obtain ⟨m, hstep⟩ := blockStep_of_call hd (hsame.window.trans hw) ha hn
    have hsettle := settle_sound (s := transport (kindOf i) d m { t with rest := k, tx := tx, count := n })
      ⟨q, by simpa using hk, by simpa [State.qia] using hq⟩
    exact ⟨_, hstep, hsettle.imp_left fun hctl => hctl.trans (by simp [hsame.ctl])⟩

/-! ### The positions of the invariant are Sound (R23) -/

theorem waitAt_sound {q : Bool} {k : List Stmt} (hk : Sound q k) : ∀ l ∈ waitAt k, Sound q l := by
  simp only [waitAt, List.forall_mem_cons]
  exact ⟨(sound_waitUntilIdle q k).mpr hk, ⟨trivial, hk⟩, by simp⟩

theorem resetAt_sound {q : Bool} {k : List Stmt} (hk : Sound q k) : ∀ l ∈ resetAt k, Sound q l := by
  have hlast : Sound q (.issue (busCall (.rst false) [] 0) :: (waitUntilIdle ++ k)) :=
    ⟨ofRow_command rfl, (sound_waitUntilIdle q k).mpr hk⟩
  simp only [resetAt, List.forall_mem_append, List.forall_mem_cons]
  exact ⟨⟨⟨ofRow_command rfl, ofRow_command rfl, hlast⟩, ⟨ofRow_command rfl, hlast⟩, hlast, by simp⟩, waitAt_sound hk⟩

theorem quadAt_sound {q : Bool} {k : List Stmt} (hk : Sound q k) : ∀ l ∈ quadAt k, Sound q l := by
  simp only [quadAt, List.forall_mem_cons]
  exact ⟨⟨trivial, trivial, hk⟩, ⟨.inl rfl, .inl rfl, trivial, hk⟩, ⟨.inl rfl, trivial, hk⟩, ⟨trivial, hk⟩, by simp⟩

theorem qpiAt_sound {q : Bool} {k : List Stmt} (hk : Sound true k) : ∀ l ∈ qpiAt k, Sound q l := by
  obtain ⟨-, htail⟩ := sound_qpiTail q hk
  simp only [qpiAt, List.forall_mem_append, List.forall_mem_cons]
  exact ⟨quadAt_sound (sound_qpiTail q hk), htail, htail.2, by simp⟩

theorem sound_mapTail (q : Bool) : Sound q mapTail := ⟨ofRow_busCall rfl trivial, trivial, trivial⟩

theorem eraseAt_sound {q : Bool} {cmd : Instr} (hc : busKind cmd = some .command) : ∀ l ∈ eraseAt cmd, Sound q l := by
  simp only [eraseAt, List.forall_mem_cons]
  exact ⟨⟨ofRow_command hc, (sound_waitUntilIdle q []).mpr trivial⟩, waitAt_sound trivial⟩

theorem programAt_sound {q : Bool} {a : Addr} {tx : List Byte} {k : List Stmt} (h1 : 1 ≤ tx.length)
    (h2 : tx.length ≤ Config.pageSize) (hk : Sound q k) : ∀ l ∈ programAt a tx k, Sound q l := by
  simp only [programAt, List.forall_mem_cons]
  exact ⟨sound_programRest h1 h2 hk, waitAt_sound hk⟩

/-- The slice of a chunk has the chunk's length: `Src` holds it (R205). -/
theorem chunkSlice_length {s : State} (h : chunkInv s) : (srcSlice s.src s.srcOff s.chunkLen).length = s.chunkLen := by
  obtain ⟨-, hsrc, -, -, hoff, hlen⟩ := h
  have : s.chunkLen ≤ s.remaining := hlen ▸ Nat.min_le_right _ _
  simp only [srcSlice, List.length_take, List.length_drop]
  omega

/-- So it is a payload a page program can send. -/
theorem chunkSlice_bounds {s : State} (h : chunkInv s) :
    1 ≤ (srcSlice s.src s.srcOff s.chunkLen).length ∧
    (srcSlice s.src s.srcOff s.chunkLen).length ≤ Config.pageSize := by
  rw [chunkSlice_length h]
  obtain ⟨-, -, hpos, -, -, hlaw⟩ := h
  rw [hlaw]
  exact ⟨chunkLength_pos hpos, chunkLength_le_pageSize _ _⟩

/-- Every position the invariant admits is Sound, whatever the mode. -/
theorem position_sound {s : State} (h : position s) : Sound false s.rest := by
  have hquad : Sound false enableQuadBody := ⟨.inr rfl, trivial, trivial, trivial⟩
  unfold position at h
  split at h
  · exact h.elim (resetAt_sound hquad _) (quadAt_sound (sound_nil _) _)
  · exact resetAt_sound (sound_nil _) _ h
  · exact quadAt_sound (sound_nil _) _ h
  · exact qpiAt_sound (sound_nil _) _ h
  · exact h.elim (qpiAt_sound (sound_mapTail true) _) (fun hmap => hmap ▸ sound_mapTail false)
  · exact eraseAt_sound rfl _ h
  · exact eraseAt_sound rfl _ h
  · exact eraseAt_sound rfl _ h
  · exact eraseAt_sound rfl _ h
  · obtain ⟨hpos, hpage, tx, ⟨hlen, -⟩, hrest⟩ := h
    exact programAt_sound (hlen ▸ hpos) (hlen ▸ le_pageSize_of_not_crossesPage hpage) (sound_nil _) _ hrest
  · obtain ⟨hinv, hrest⟩ := h
    obtain ⟨h1, h2⟩ := chunkSlice_bounds hinv
    have hnext : Sound false [.advance, .chunkLoop] := ⟨trivial, trivial, trivial⟩
    exact programAt_sound h1 h2 hnext _ hrest
  · exact h.elim

end Sys2Proof.Machine

namespace Sys2Proof.Proofs
open Sys2Proof.Machine Sys2Proof.Safety

/-- Settles O41: every position of the invariant is Sound, and the window of a Busy block is unarmed. -/
theorem busyBlockIsNeverStuck : Obligations.BusyBlockIsNeverStuck := by
  intro s hinv hb hr
  obtain ⟨hmode, hpos⟩ := hinv.busy hb
  have hw : s.window = none := hinv.window.trans (if_neg hmode)
  rw [step_of_busy hr hb, ← hb]
  exact blockStep_sound ⟨false, position_sound hpos, by simp⟩ hw

end Sys2Proof.Proofs

/-! PROOFS. The invariant of the machine. First the decoder's answers to a request word and the names of the calls that arm
nothing. Then local computation from each shape of position: it makes a call that leaves the block at a position of the
same operation, or comes to the statements after the shape. From that every step keeps the invariant and no step but
hardware reset moves the mode backward. -/
namespace Sys2Proof

/-! ### What a request word decodes to (R85, R87) -/

theorem takesNothing_ok {i j : Instr} {f : RequestFields} (h : takesNothing i f = .ok j) : j = i := by
  unfold takesNothing at h
  split at h <;> cases h
  rfl

theorem takesValue_ok {i : Byte → Instr} {j : Instr} {f : RequestFields} (h : takesValue i f = .ok j) :
    j = i f.value := by
  unfold takesValue at h
  split at h <;> cases h
  rfl

theorem takesAddr_ok {i : Addr → Instr} {j : Instr} {f : RequestFields} (h : takesAddr i f = .ok j) :
    j = i f.addr := by
  unfold takesAddr at h
  split at h <;> cases h
  rfl

theorem takesRegion_ok {i : Addr → Nat → Instr} {j : Instr} {f : RequestFields} (h : takesRegion i f = .ok j) :
    j = i f.addr f.len.toNat := by
  unfold takesRegion at h
  split at h
  · split at h <;> cases h
    rfl
  · cases h

theorem decodeFields_ok {f : RequestFields} {i : Instr} (h : decodeFields f = .ok i) :
    ∃ code, hostCode i = some code := by
  unfold decodeFields at h
  split at h
  case h_7 | h_9 => cases takesValue_ok h; exact ⟨_, rfl⟩
  case h_10 | h_11 | h_12 => cases takesAddr_ok h; exact ⟨_, rfl⟩
  case h_14 | h_15 | h_17 => cases takesRegion_ok h; exact ⟨_, rfl⟩
  case h_18 => cases h
  all_goals cases takesNothing_ok h; exact ⟨_, rfl⟩

/-- A request word decodes to a host operation, never to a bus command. -/
theorem decodeHost_ok {w : HostWord} {i : Instr} (h : decodeHost w = .ok i) : ∃ code, hostCode i = some code := by
  unfold decodeHost at h
  split at h
  · cases h
  · split at h
    · exact decodeFields_ok h
    · cases h

end Sys2Proof

namespace Sys2Proof.Machine
open Sys2Proof.Safety Sys2Proof.Claims

/-! ### Calls that arm nothing (R113) -/

/-- A call of a discrete command: the port does not arm the window for it. -/
def Call.discrete (c : Call) : Prop := decodeBus c.word ≠ .ok .qioread

theorem discrete_busCall {i : Instr} {d : Descriptor} (hd : busDescriptor i = some d) (hi : i ≠ .qioread)
    (tx : List Byte) (n : Nat) : (busCall i tx n).discrete := by
  simpa [Call.discrete, busCall_word hd, decodeBus_pack hd] using hi

theorem discrete_registerCall {op : Byte} (h : op = opRDSR1 ∨ op = opRDCR ∨ op = opWRSR1 ∨ op = opWRCR)
    (tx : List Byte) (s : State) : (registerCall op tx s).discrete := by
  rcases h with rfl | rfl | rfl | rfl
  · exact discrete_busCall (i := .rdsr1 s.qia) rfl (by nofun) tx 0
  · exact discrete_busCall (i := .rdcr s.qia) rfl (by nofun) tx 0
  · exact discrete_busCall (i := .wrsr1 s.qia) rfl (by nofun) tx 0
  · exact discrete_busCall (i := .wrcr s.qia) rfl (by nofun) tx 0

/-- Only QIOREAD is an arm (R86). -/
theorem kindOf_ne_arm {i : Instr} (h : i ≠ .qioread) : kindOf i ≠ .arm := by
  cases i <;> simp_all [kindOf, busKind]

/-! ### What local computation outside WRITE_REGION may change -/

/-- Nothing outside the block, no working register, and the mode only upward, short of MemoryMapped (R21, R24, R134). -/
structure Near (s t : State) : Prop where
  same : SameOutside s t
  chunker : ChunkerKept s t
  climbs : s.mode ≠ .memoryMapped → t.mode ≠ .memoryMapped ∧ s.mode.rank ≤ t.mode.rank

theorem Near.refl (s : State) : Near s s := ⟨.refl s, ⟨rfl, rfl, rfl, rfl⟩, fun h => ⟨h, Nat.le_refl _⟩⟩

theorem Near.trans {s t u : State} (h : Near s t) (h' : Near t u) : Near s u where
  same := h.same.trans h'.same
  chunker := ⟨h'.chunker.cursor.trans h.chunker.cursor, h'.chunker.remaining.trans h.chunker.remaining,
    h'.chunker.srcOff.trans h.chunker.srcOff, h'.chunker.chunkLen.trans h.chunker.chunkLen⟩
  climbs hs := ⟨(h'.climbs (h.climbs hs).1).1, Nat.le_trans (h.climbs hs).2 (h'.climbs (h.climbs hs).1).2⟩

theorem Near.of_sameMode {s t : State} (hs : SameOutside s t) (hc : ChunkerKept s t) (hm : t.mode = s.mode) :
    Near s t :=
  ⟨hs, hc, fun h => ⟨hm ▸ h, Nat.le_of_eq (by rw [hm])⟩⟩

/-- A byte used is gone (R26). -/
theorem Near.clearRx (s : State) : Near s { s with rx := [] } :=
  .of_sameMode (by constructor <;> rfl) ⟨rfl, rfl, rfl, rfl⟩ rfl

/-- The mode raised by ENABLE_QUAD (R131). -/
theorem Near.raise (s : State) :
    Near s (if s.mode = .singleWire then { s with mode := .quadRegisterEnabled } else s) := by
  split
  · exact ⟨by constructor <;> rfl, ⟨rfl, rfl, rfl, rfl⟩, fun _ => ⟨nofun, by simp [*, Mode.rank]⟩⟩
  · exact .refl s

/-- The mode set by ENTER_QPI (R132). -/
theorem Near.setQpi (s : State) : Near s { s with mode := .qpi } :=
  ⟨by constructor <;> rfl, ⟨rfl, rfl, rfl, rfl⟩,
    fun h => ⟨nofun, by cases hm : s.mode <;> simp_all [Mode.rank]⟩⟩

/-! ### The acts of the statements that test something, a case each -/

theorem act_testQe_set {s : State} (h : qeSet (firstByte s.rx) = true) :
    act .testQe s = .skip { s with rx := [] } := by simp [act, h]

theorem act_testQe_clear {s : State} (h : qeSet (firstByte s.rx) = false) :
    act .testQe s = .call (registerCall opWRCR [withQe (firstByte s.rx)] s)
      [.readRegister opRDSR1, .writeRegister opWRSR1 .readWithQe] { s with rx := [] } := by simp [act, h]

theorem act_testWip_set {s : State} (h : wipSet (firstByte s.rx) = true) :
    act .testWip s = .call (registerCall opRDSR1 [] s) [.testWip] { s with rx := [] } := by simp [act, h]

theorem act_testWip_clear {s : State} (h : wipSet (firstByte s.rx) = false) :
    act .testWip s = .skip { s with rx := [] } := by simp [act, h]

theorem act_enterQpi_set {s : State} (h : s.qia = true) : act .enterQpi s = .skip s := by simp [act, h]

theorem act_enterQpi_clear {s : State} (h : s.qia = false) :
    act .enterQpi s = .call (registerCall opRDCR [] s) afterCrRead s := by simp [act, h]

theorem act_raiseMode_singleWire {s : State} (h : s.mode = .singleWire) :
    act .raiseMode s = .skip { s with mode := .quadRegisterEnabled } := by simp [act, h]

theorem act_raiseMode_other {s : State} (h : s.mode ≠ .singleWire) : act .raiseMode s = .skip s := by simp [act, h]

theorem act_chunkLoop_done {s : State} (h : s.remaining = 0) : act .chunkLoop s = .skip (freeWorking s) := by
  simp [act, h]

theorem act_chunkLoop_next {s : State} (h : s.remaining ≠ 0) :
    act .chunkLoop s =
      pageProgramAct (BitVec.ofNat 24 s.cursor) (chunkLength s.cursor s.remaining) s.srcOff [.advance, .chunkLoop]
        { s with chunkLen := chunkLength s.cursor s.remaining } := by simp [act, h]

theorem pageProgramAct_across {a : Addr} {n : Nat} (h : crossesPage a n = true) (off : Nat) (k : List Stmt)
    (s : State) : pageProgramAct a n off k s = .fatal s := by simp [pageProgramAct, h]

/-! ### Local computation from a shape of position -/

/-- From `s` local computation makes a discrete call that leaves statements of which `P` holds, or comes to `k`. -/
def Stays (P : List Stmt → Prop) (k : List Stmt) (s : State) (p : Pending) : Prop :=
  (∃ c l t, p = .call c l t ∧ c.discrete ∧ P l ∧ Near s t) ∨ ∃ t, p = nextCall k t ∧ Near s t

section
variable {P : List Stmt → Prop} {k l : List Stmt} {s : State}

theorem Stays.reach (k : List Stmt) (s : State) : Stays P k s (nextCall k s) := .inr ⟨s, rfl, .refl s⟩

/-- What is reached later is near the start too. -/
theorem Stays.from_near {t : State} {p : Pending} (h : Stays P k t p) (hn : Near s t) : Stays P k s p := by
  rcases h with ⟨c, l, u, hp, hc, hl, hu⟩ | ⟨u, hp, hu⟩
  · exact .inl ⟨c, l, u, hp, hc, hl, hn.trans hu⟩
  · exact .inr ⟨u, hp, hn.trans hu⟩

/-- Where `k` is reached, computation goes on from there. -/
theorem Stays.trans {k' : List Stmt} {p : Pending} (h : Stays P k s p) (h' : ∀ t, Stays P k' t (nextCall k t)) :
    Stays P k' s p := by
  rcases h with hcall | ⟨t, rfl, hn⟩
  · exact .inl hcall
  · exact (h' t).from_near hn

theorem Stays.issue {i : Instr} {d : Descriptor} (hd : busDescriptor i = some d) (hi : i ≠ .qioread) {tx : List Byte}
    {n : Nat} (hl : P l) : Stays P k s (nextCall (.issue (busCall i tx n) :: l) s) :=
  .inl ⟨_, l, s, rfl, discrete_busCall hd hi tx n, hl, .refl s⟩

theorem Stays.readRegister {op : Byte} (hop : op = opRDSR1 ∨ op = opRDCR) (hl : P l) :
    Stays P k s (nextCall (.readRegister op :: l) s) :=
  .inl ⟨_, l, s, rfl, discrete_registerCall (by tauto) _ _, hl, .refl s⟩

theorem Stays.writeRegister {op : Byte} {v : RegisterArg} (hop : op = opWRSR1 ∨ op = opWRCR) (hl : P l) :
    Stays P k s (nextCall (.writeRegister op v :: l) s) :=
  .inl ⟨_, l, _, rfl, discrete_registerCall (by tauto) _ _, hl, .clearRx s⟩

theorem Stays.testWip (hP : P (.testWip :: k)) : Stays P k s (nextCall (.testWip :: k) s) := by
  cases hw : wipSet (firstByte s.rx) with
  | true =>
    simp only [nextCall, act_testWip_set hw]
    exact .inl ⟨_, _, _, rfl, discrete_registerCall (.inl rfl) _ _, hP, .clearRx s⟩
  | false =>
    simp only [nextCall, act_testWip_clear hw]
    exact (Stays.reach k _).from_near (.clearRx s)

/-- WAIT_UNTIL_IDLE polls, or goes on to `k` (R172). -/
theorem waitAt_stays (hP : ∀ l ∈ waitAt k, P l) (hl : l ∈ waitAt k) : Stays P k s (nextCall l s) := by
  have hpoll : P (.testWip :: k) := hP _ (by simp [waitAt])
  simp only [waitAt, List.mem_cons, List.not_mem_nil, or_false] at hl
  rcases hl with rfl | rfl
  · exact .readRegister (.inl rfl) hpoll
  · exact .testWip hpoll

/-- The reset sequence (R178). -/
theorem resetAt_stays (hP : ∀ l ∈ resetAt k, P l) (hl : l ∈ resetAt k) : Stays P k s (nextCall l s) := by
  simp only [resetAt, List.mem_append, List.mem_cons, List.not_mem_nil, or_false] at hl
  rcases hl with (rfl | rfl | rfl) | hl
  · exact .issue rfl (by nofun) (hP _ (by simp [resetAt]))
  · exact .issue rfl (by nofun) (hP _ (by simp [resetAt]))
  · exact .issue rfl (by nofun) (hP _ (by simp [resetAt, waitAt]))
  · exact waitAt_stays (fun l' hl' => hP l' (List.mem_append_right _ hl')) hl

/-- The last statement of ENABLE_QUAD (R131). -/
theorem Stays.raiseMode : Stays P k s (nextCall (.raiseMode :: k) s) := .inr ⟨_, rfl, .raise s⟩

/-- ENABLE_QUAD after its read of CR (R131). -/
theorem quadAt_stays (hP : ∀ l ∈ quadAt k, P l) (hl : l ∈ quadAt k) : Stays P k s (nextCall l s) := by
  simp only [quadAt, List.mem_cons, List.not_mem_nil, or_false] at hl
  rcases hl with rfl | rfl | rfl | rfl
  · cases hq : qeSet (firstByte s.rx) with
    | true =>
      simp only [nextCall, act_testQe_set hq]
      exact Stays.raiseMode.from_near (.clearRx s)
    | false =>
      simp only [nextCall, act_testQe_clear hq]
      exact .inl ⟨_, _, _, rfl, discrete_registerCall (by tauto) _ _, hP _ (by simp [quadAt]), .clearRx s⟩
  · exact .readRegister (.inl rfl) (hP _ (by simp [quadAt]))
  · exact .writeRegister (.inl rfl) (hP _ (by simp [quadAt]))
  · exact .raiseMode

/-- ENTER_QPI after its read of CR, up to its parameter write, which leaves `k` (R132). -/
theorem qpiAt_stays {k' : List Stmt} (hP : ∀ l ∈ qpiAt k, P l) (hk : P k) (hl : l ∈ qpiAt k) :
    Stays P k' s (nextCall l s) := by
  simp only [qpiAt, List.mem_append, List.mem_cons, List.not_mem_nil, or_false] at hl
  rcases hl with hl | rfl | rfl
  · exact (quadAt_stays (fun l' hl' => hP l' (List.mem_append_left _ hl')) hl).trans fun t =>
      .issue rfl (by nofun) (hP _ (by simp [qpiAt]))
  · exact .issue rfl (by nofun) (hP _ (by simp [qpiAt]))
  · refine .inl ⟨_, k, _, rfl, ?_, hk, (Near.setQpi s).trans (.clearRx _)⟩
    rw [registerCall_srp _ rfl]
    exact discrete_busCall rfl (by nofun) [registerArg .readParams s] 0

/-- An erase after its write-enable (R176, R183). -/
theorem eraseAt_stays {cmd : Instr} (hc : busKind cmd = some .command) (hP : ∀ l ∈ eraseAt cmd, P l)
    (hl : l ∈ eraseAt cmd) : Stays P [] s (nextCall l s) := by
  have hwait : ∀ l ∈ waitAt [], P l := fun l' hl' => hP l' (List.mem_cons_of_mem _ hl')
  rcases List.mem_cons.mp hl with rfl | hl
  · refine .inl ⟨_, _, s, rfl, ?_, hwait _ (by simp [waitAt]), .refl s⟩
    cases cmd <;> cases hc <;> exact discrete_busCall rfl (by nofun) _ _
  · exact waitAt_stays hwait hl

/-- A page program after its write-enable (R177). -/
theorem programAt_stays {a : Addr} {tx : List Byte} (hP : ∀ l ∈ programAt a tx k, P l) (hl : l ∈ programAt a tx k) :
    Stays P k s (nextCall l s) := by
  have hwait : ∀ l ∈ waitAt k, P l := fun l' hl' => hP l' (List.mem_cons_of_mem _ hl')
  rcases List.mem_cons.mp hl with rfl | hl
  · exact .issue rfl (by nofun) (hwait _ (by simp [waitAt]))
  · exact waitAt_stays hwait hl

end

/-! ### Where a step of a Busy block leaves it -/

/-- The statements that may stand after the last transport call of an operation but ENTER_MEMORY_MAP (R10). -/
def lastStmts : List (List Stmt) := [[], [.returnBytes], [.storeDst]]

/-- The statements `l` are a position of the operation of `s`, or its last ones. -/
def Rests (s : State) (l : List Stmt) : Prop := position { s with rest := l } ∨ l ∈ lastStmts

/-- What local computation from the mode `m` keeps: it does not enter the window, the mode only climbs, and the ranges
hold (R21, R24, R134). -/
structure Bounded (m : Mode) (t : State) : Prop where
  unmapped : t.mode ≠ .memoryMapped
  climbs : m.rank ≤ t.mode.rank
  ranges : rangesOk t

/-- Where local computation from the mode `m` may lead: to a discrete call that leaves a position, to the arm of the
window, to the end of the operation, or to the fault of a PAGE_PROGRAM that crosses a page. -/
def Proceeds (m : Mode) : Pending → Prop
  | .call c l t => Bounded m t ∧ (c.discrete ∧ Rests t l ∨ decodeBus c.word = .ok .qioread ∧ l = [.setMapped])
  | .ended t => Bounded m t
  | .fatal t => Bounded m t ∧ t.rx = [] ∧ t.op = 0x0E ∧ crossesPage t.addr t.len = true

theorem Bounded.of_climbs {m m' : Mode} {t : State} (h : Bounded m' t) (hm : m.rank ≤ m'.rank) : Bounded m t :=
  ⟨h.unmapped, Nat.le_trans hm h.climbs, h.ranges⟩

/-- What proceeds from a mode proceeds from every mode below it. -/
theorem Proceeds.of_climbs {m m' : Mode} {p : Pending} (h : Proceeds m' p) (hm : m.rank ≤ m'.rank) : Proceeds m p := by
  cases p with
  | call c l t => exact ⟨h.1.of_climbs hm, h.2⟩
  | ended t => exact Bounded.of_climbs h hm
  | fatal t => exact ⟨h.1.of_climbs hm, h.2⟩

/-- Positions are about the latches, the working registers, `Src` and the statements left. -/
theorem Near.position {s t : State} {l : List Stmt} (h : Near s t) (hp : position { s with rest := l }) :
    position { t with rest := l } := by
  obtain ⟨hs, hc, -⟩ := h
  simpa [Safety.position, chunkInv, hs.op, hs.addr, hs.len, hs.src, hc.cursor, hc.remaining, hc.srcOff, hc.chunkLen]
    using hp

theorem Near.rests {s t : State} {l : List Stmt} (h : Near s t) (hp : Rests s l) : Rests t l := hp.imp_left h.position

theorem Near.bounded {s t : State} (h : Near s t) (hm : s.mode ≠ .memoryMapped) (hr : rangesOk s) :
    Bounded s.mode t where
  unmapped := (h.climbs hm).1
  climbs := (h.climbs hm).2
  ranges := by
    obtain ⟨hs, hc, -⟩ := h
    simpa [rangesOk, hs.len, hc.cursor, hc.remaining, hc.srcOff, hc.chunkLen] using hr

/-- A shape that leaves positions proceeds if what it comes to does. -/
theorem Stays.proceeds {k : List Stmt} {s : State} {p : Pending} (h : Stays (Rests s) k s p)
    (hm : s.mode ≠ .memoryMapped) (hr : rangesOk s) (hk : ∀ t, Near s t → Proceeds s.mode (nextCall k t)) :
    Proceeds s.mode p := by
  rcases h with ⟨c, l, t, rfl, hc, hl, hn⟩ | ⟨t, rfl, hn⟩
  · exact ⟨hn.bounded hm hr, .inl ⟨hc, hn.rests hl⟩⟩
  · exact hk t hn

/-! ### The loop of WRITE_REGION (R200) -/

/-- WRITE_REGION with `remaining` bytes still to be programmed, at the head of its loop: the preconditions and the loop
equations (R37 (e), R205). -/
structure AtLoop (s : State) : Prop where
  op : s.op = 0x0F
  top : s.addr.toNat + s.len ≤ Config.addrSpace
  enough : s.len ≤ s.src.length
  cursor : s.cursor + s.remaining = s.addr.toNat + s.len
  srcOff : s.srcOff + s.remaining = s.len

/-- The loop ends where nothing remains (R208). -/
theorem nextCall_chunkLoop_done {s : State} (h : s.remaining = 0) :
    nextCall [.chunkLoop] s = .ended (freeWorking s) := by simp only [nextCall, act_chunkLoop_done h]

/-- Otherwise its next chunk, which `Src` holds, is inside its page, and makes its write-enable call (R177, R201). -/
theorem nextCall_chunkLoop_next {s : State} (h : s.remaining ≠ 0) (hsrc : s.srcOff + s.remaining ≤ s.src.length) :
    nextCall [.chunkLoop] s = .call (busCall .wren [] 0)
      (.issue (busCall (.qpp (BitVec.ofNat 24 s.cursor))
          (srcSlice s.src s.srcOff (chunkLength s.cursor s.remaining)) 0) ::
        (waitUntilIdle ++ [.advance, .chunkLoop]))
      { s with chunkLen := chunkLength s.cursor s.remaining } := by
  have hle : chunkLength s.cursor s.remaining ≤ s.remaining := Nat.min_le_right _ _
  have henough : s.srcOff + chunkLength s.cursor s.remaining ≤ s.src.length := by omega
  simp only [nextCall, act_chunkLoop_next h, pageProgramAct_inside (chunk_not_crossesPage _ _)]
  rw [payload_of_enough (by exact henough), takePayload_of_enough (by exact henough)]
  rfl

theorem freeWorking_ranges {s : State} (h : rangesOk s) : rangesOk (freeWorking s) := by
  have hmod : ∀ n, n % (Config.addrSpace + 1) ≤ Config.addrSpace := fun n =>
    Nat.le_of_lt_succ (Nat.mod_lt n (Nat.succ_pos _))
  obtain ⟨-, -, -, -, -, hlen⟩ := h
  refine ⟨hmod _, hmod _, hmod _, ?_, ?_, hlen⟩
  · exact Nat.le_add_right 1 _
  · have := Nat.mod_lt (Config.freeNat (s.fresh + 3)) (show 0 < Config.pageSize by decide)
    simp only [freeWorking]
    omega

/-- The head of the loop: the end, or a chunk at which the loop equations hold (R37 (e)). -/
theorem chunkLoop_proceeds {s : State} (h : AtLoop s) (hm : s.mode ≠ .memoryMapped) (hr : rangesOk s) :
    Proceeds s.mode (nextCall [.chunkLoop] s) := by
  by_cases h0 : s.remaining = 0
  · rw [nextCall_chunkLoop_done h0]
    exact ⟨hm, Nat.le_refl _, freeWorking_ranges hr⟩
  · obtain ⟨hop, htop, henough, hcur, hoff⟩ := h
    rw [nextCall_chunkLoop_next h0 (by omega)]
    have hpos : 1 ≤ chunkLength s.cursor s.remaining := chunkLength_pos (by omega)
    have hpage := chunkLength_le_pageSize s.cursor s.remaining
    obtain ⟨hc, hrem, hso, -, -, hlen⟩ := hr
    refine ⟨⟨hm, Nat.le_refl _, hc, hrem, hso, hpos, hpage, hlen⟩, .inl ⟨discrete_busCall rfl (by nofun) _ _, .inl ?_⟩⟩
    simp only [position, hop]
    exact ⟨⟨htop, henough, Nat.pos_of_ne_zero h0, hcur, hoff, rfl⟩, List.mem_cons_self ..⟩

/-- The end of the loop body: the chunk is done, and the equations hold of what remains (R37 (e), R200). -/
theorem advance_proceeds {s : State} (hop : s.op = 0x0F) (h : chunkInv s) (hm : s.mode ≠ .memoryMapped)
    (hr : rangesOk s) : Proceeds s.mode (nextCall [.advance, .chunkLoop] s) := by
  obtain ⟨htop, henough, hpos, hcur, hoff, hlaw⟩ := h
  obtain ⟨-, -, -, hc1, hc8, hlen⟩ := hr
  have hle : s.chunkLen ≤ s.remaining := hlaw ▸ Nat.min_le_right _ _
  exact chunkLoop_proceeds (s := { s with
      cursor := s.cursor + s.chunkLen, srcOff := s.srcOff + s.chunkLen, remaining := s.remaining - s.chunkLen })
    ⟨hop, htop, henough, by simp only; omega, by simp only; omega⟩ hm
    ⟨by simp only; omega, by simp only; omega, by simp only; omega, hc1, hc8, hlen⟩

/-- The start of WRITE_REGION (R200). -/
theorem startChunks_proceeds {s : State} (hop : s.op = 0x0F) (htop : s.addr.toNat + s.len ≤ Config.addrSpace)
    (henough : s.len ≤ s.src.length) (hm : s.mode ≠ .memoryMapped) (hr : rangesOk s) :
    Proceeds s.mode (nextCall [.startChunks, .chunkLoop] s) := by
  obtain ⟨-, -, -, hc1, hc8, hlen⟩ := hr
  exact chunkLoop_proceeds (s := { s with cursor := s.addr.toNat, remaining := s.len, srcOff := 0 })
    ⟨hop, htop, henough, rfl, Nat.zero_add _⟩ hm
    ⟨by simp only; omega, hlen, Nat.zero_le _, hc1, hc8, hlen⟩

/-! ### From a position of the invariant (R23) -/

/-- A shape that comes to the end of the operation (R10). -/
theorem Stays.proceeds_end {s : State} {p : Pending} (h : Stays (Rests s) [] s p) (hm : s.mode ≠ .memoryMapped)
    (hr : rangesOk s) : Proceeds s.mode p := h.proceeds hm hr fun _ hn => hn.bounded hm hr

/-- The end of ENTER_MEMORY_MAP, reached: the call of the arm (R133). -/
theorem mapTail_proceeds {s t : State} (hm : s.mode ≠ .memoryMapped) (hr : rangesOk s) (h : Near s t) :
    Proceeds s.mode (nextCall mapTail t) :=
  ⟨h.bounded hm hr, .inr ⟨decodeBus_pack rfl, rfl⟩⟩

/-- A chunk done keeps what `chunkInv` says of it. -/
theorem Near.chunkInv {s t : State} (h : Near s t) (hc : chunkInv s) : chunkInv t := by
  obtain ⟨hs, hk, -⟩ := h
  simpa [Safety.chunkInv, hs.addr, hs.len, hs.src, hk.cursor, hk.remaining, hk.srcOff, hk.chunkLen] using hc

/-- From every position of the invariant local computation proceeds. -/
theorem position_proceeds {s : State} (h : position s) (hm : s.mode ≠ .memoryMapped) (hr : rangesOk s) :
    Proceeds s.mode (nextCall s.rest s) := by
  have hends : Stays (Rests s) [] s (nextCall s.rest s) → Proceeds s.mode (nextCall s.rest s) :=
    fun hp => hp.proceeds_end hm hr
  unfold position at h
  split at h
  case h_1 heq =>
    have hreset : ∀ l ∈ resetAt enableQuadBody, Rests s l := fun l hl => .inl (by simp [position, heq, hl])
    have hquad : ∀ l ∈ quadAt [], Rests s l := fun l hl => .inl (by simp [position, heq, hl])
    rcases h with h | h
    · exact hends ((resetAt_stays hreset h).trans fun t => .readRegister (.inr rfl) (hquad _ (by simp [quadAt])))
    · exact hends (quadAt_stays hquad h)
  case h_2 heq => exact hends (resetAt_stays (fun l hl => .inl (by simp [position, heq, hl])) h)
  case h_3 heq => exact hends (quadAt_stays (fun l hl => .inl (by simp [position, heq, hl])) h)
  case h_4 heq =>
    exact hends (qpiAt_stays (fun l hl => .inl (by simp [position, heq, hl])) (.inr (by simp [lastStmts])) h)
  case h_5 heq =>
    refine Stays.proceeds (k := mapTail) ?_ hm hr fun _ hn => mapTail_proceeds hm hr hn
    rcases h with h | h
    · exact qpiAt_stays (fun l hl => .inl (by simp [position, heq, hl])) (.inl (by simp [position, heq])) h
    · rw [h]
      exact .reach mapTail s
  case h_6 heq | h_7 heq | h_8 heq | h_9 heq =>
    exact hends (eraseAt_stays rfl (fun l hl => .inl (by simp [position, heq, hl])) h)
  case h_10 heq =>
    obtain ⟨hlen, hpage, tx, htx, hrest⟩ := h
    refine hends (programAt_stays (fun l hl => .inl ?_) hrest)
    simp only [position, heq]
    exact ⟨hlen, hpage, tx, htx, hl⟩
  case h_11 heq =>
    obtain ⟨hinv, hrest⟩ := h
    have hop : s.op = 0x0F := BitVec.eq_of_toNat_eq heq
    have hstays : Stays (Rests s) [.advance, .chunkLoop] s (nextCall s.rest s) :=
      programAt_stays (fun l hl => .inl (by simpa [position, heq] using ⟨hinv, hl⟩)) hrest
    refine hstays.proceeds hm hr fun t hn => ?_
    have hb := hn.bounded hm hr
    exact (advance_proceeds (hn.same.op.trans hop) (hn.chunkInv hinv) hb.unmapped hb.ranges).of_climbs hb.climbs
  case h_12 => exact h.elim

/-! ### From the start of an operation (R234) -/

/-- Items 5 and 6 of R234. -/
theorem regionRefusal_none {a : Addr} {n : Nat} (h : regionRefusal a n = none) :
    1 ≤ n ∧ a.toNat + n ≤ Config.addrSpace := by
  unfold regionRefusal at h
  split at h
  · cases h
  · split at h
    · cases h
    · omega

/-- The operands of WRITE_REGION: their range, and `Src` holds the bytes (R205). -/
theorem srcRegion_none {a : Addr} {n : Nat} {src : List Byte} (h : operandRefusal (.srcRegion a n) src = none) :
    a.toNat + n ≤ Config.addrSpace ∧ n ≤ src.length := by
  simp only [operandRefusal] at h
  split at h
  · cases h
  · split at h
    · cases h
    · exact ⟨(regionRefusal_none ‹_›).2, by omega⟩

/-- Operands that are not refused keep the ranges (R25, R234). -/
theorem accept_ranges {code : BitVec 5} {o : Operands} {body : List Stmt} {s : State} (h : rangesOk s)
    (ho : operandRefusal o s.src = none) : rangesOk (accept code o body s) := by
  obtain ⟨hc, hrem, hoff, hk1, hk8, hlen⟩ := h
  cases o with
  | nothing => exact ⟨hc, hrem, hoff, hk1, hk8, hlen⟩
  | value v => exact ⟨hc, hrem, hoff, hk1, hk8, hlen⟩
  | addr a => exact ⟨hc, hrem, hoff, hk1, hk8, hlen⟩
  | dstRegion a n =>
    obtain ⟨-, hn⟩ := regionRefusal_none ho
    exact ⟨hc, hrem, hoff, hk1, hk8, by simp only [accept, latch]; omega⟩
  | srcPage a n =>
    obtain ⟨-, hn⟩ := regionRefusal_none ho
    exact ⟨hc, hrem, hoff, hk1, hk8, by simp only [accept, latch]; omega⟩
  | srcRegion a n =>
    obtain ⟨hn, -⟩ := srcRegion_none ho
    exact ⟨hc, hrem, hoff, hk1, hk8, by simp only [accept, latch]; omega⟩

section
variable {s : State} (hm : s.mode ≠ .memoryMapped) (hr : rangesOk s)
include hm hr

theorem resetBody_proceeds (hop : s.op = 0x02) : Proceeds s.mode (nextCall resetBody s) :=
  (Stays.issue rfl (by nofun) (.inl (by simp [position, hop, resetAt]))).proceeds_end hm hr

theorem initBody_proceeds (hop : s.op = 0x01) : Proceeds s.mode (nextCall (resetBody ++ enableQuadBody) s) :=
  (Stays.issue rfl (by nofun) (.inl (by simp [position, hop, resetAt]))).proceeds_end hm hr

theorem enableQuadBody_proceeds (hop : s.op = 0x03) : Proceeds s.mode (nextCall enableQuadBody s) :=
  (Stays.readRegister (.inr rfl) (.inl (by simp [position, hop, quadAt]))).proceeds_end hm hr

theorem enterQpi_proceeds (hop : s.op = 0x04) : Proceeds s.mode (nextCall [.enterQpi] s) := by
  cases hq : s.qia with
  | true =>
    simp only [nextCall, act_enterQpi_set hq]
    exact (Stays.reach [] s).proceeds_end hm hr
  | false =>
    simp only [nextCall, act_enterQpi_clear hq]
    exact ⟨(Near.refl s).bounded hm hr, .inl ⟨discrete_registerCall (by tauto) _ _,
      .inl (by simp [position, hop, qpiAt, quadAt, afterCrRead, qpiTail])⟩⟩

theorem enterMemoryMap_proceeds (hop : s.op = 0x05) : Proceeds s.mode (nextCall (.enterQpi :: mapTail) s) := by
  cases hq : s.qia with
  | true =>
    simp only [nextCall, act_enterQpi_set hq]
    exact mapTail_proceeds hm hr (.refl s)
  | false =>
    simp only [nextCall, act_enterQpi_clear hq]
    exact ⟨(Near.refl s).bounded hm hr, .inl ⟨discrete_registerCall (by tauto) _ _,
      .inl (by simp [position, hop, qpiAt, quadAt, afterCrRead, qpiTail])⟩⟩

/-- A register read for the host (R152, R154). -/
theorem readBody_proceeds {op : Byte} (h : op = opRDSR1 ∨ op = opRDCR) :
    Proceeds s.mode (nextCall [.readRegister op, .returnBytes] s) :=
  (Stays.readRegister h (.inr (by simp [lastStmts]))).proceeds_end hm hr

/-- A register write of the host (R153, R155). -/
theorem writeBody_proceeds {op : Byte} (h : op = opWRSR1 ∨ op = opWRCR) :
    Proceeds s.mode (nextCall [.writeRegister op .latch] s) :=
  (Stays.writeRegister h (.inr (by simp [lastStmts]))).proceeds_end hm hr

/-- An erase: its write-enable (R170). -/
theorem eraseBody_proceeds {cmd : Instr} (h : ∀ l ∈ eraseAt cmd, Rests s l) :
    Proceeds s.mode (nextCall (eraseBody cmd) s) :=
  (Stays.issue rfl (by nofun) (h _ (List.mem_cons_self ..))).proceeds_end hm hr

/-- PAGE_PROGRAM: the fault where it crosses a page, else its write-enable (R177, R236). -/
theorem pageProgram_proceeds (hop : s.op = 0x0E) (hlen : 1 ≤ s.len) (hrx : s.rx = []) :
    Proceeds s.mode (nextCall [.pageProgram s.addr s.len 0] s) := by
  cases hpage : crossesPage s.addr s.len with
  | true =>
    simp only [nextCall, act, pageProgramAct_across hpage]
    exact ⟨(Near.refl s).bounded hm hr, hrx, hop, hpage⟩
  | false =>
    simp only [nextCall, act, pageProgramAct_inside hpage]
    refine ⟨⟨hm, Nat.le_refl _, hr⟩, .inl ⟨discrete_busCall rfl (by nofun) _ _, .inl ?_⟩⟩
    simp only [position, takePayload_op, hop]
    exact ⟨hlen, hpage, payload 0 s.len s, ⟨payload_length 0 s.len s, payload_take s.len s⟩, by simp [programAt]⟩

/-- The two reads: one call, and their bytes are stored (R215, R216). -/
theorem lastCall_proceeds {i : Instr} {d : Descriptor} (hd : busDescriptor i = some d) (hi : i ≠ .qioread)
    {tx : List Byte} {n : Nat} {l : List Stmt} (hl : l ∈ lastStmts) :
    Proceeds s.mode (nextCall (.issue (busCall i tx n) :: l) s) :=
  (Stays.issue hd hi (.inr hl)).proceeds_end hm hr

end

/-! ### The invariant across a step -/

/-- The end of an operation keeps the invariant, the window armed as the mode says. -/
theorem finish_inv {t : State} (hflash : Memory.wf t.params t.device.flash) (hport : t.tx = [] ∧ t.count = 0)
    (hwindow : t.window = if t.mode = .memoryMapped then some mmapTemplate else none) (hr : rangesOk t) :
    Inv (finish t) where
  flash := hflash
  window := hwindow
  busy := nofun
  still _ := ⟨rfl, rfl⟩
  port := hport
  ranges := by
    obtain ⟨hc, hrem, hoff, hk1, hk8, -⟩ := hr
    exact ⟨hc, hrem, hoff, hk1, hk8, Nat.le_of_lt_succ (Nat.mod_lt _ (Nat.succ_pos _))⟩
  halted := nofun

/-- A state whose operation is in progress, after a transport call and before it is settled (R10). -/
structure Midway (s : State) : Prop where
  flash : Memory.wf s.params s.device.flash
  port : s.tx = [] ∧ s.count = 0
  busy : s.ctl = .busy
  unmapped : s.mode ≠ .memoryMapped
  ranges : rangesOk s
  place : s.window = none ∧ Rests s s.rest ∨ s.window = some mmapTemplate ∧ s.rest = [.setMapped]

/-- The invariant holds at `t`, and the mode has not gone back from `s` (R134). -/
def Advances (s t : State) : Prop := Inv t ∧ s.mode.rank ≤ t.mode.rank

/-- The last statements end the operation, and change nothing the invariant is about. -/
theorem lastStmts_ended {l : List Stmt} (h : l ∈ lastStmts) (s : State) :
    ∃ t, nextCall l s = .ended t ∧ Near s t := by
  simp only [lastStmts, List.mem_cons, List.not_mem_nil, or_false] at h
  rcases h with rfl | rfl | rfl
  · exact ⟨s, rfl, .refl s⟩
  · exact ⟨_, rfl, .of_sameMode (by constructor <;> rfl) ⟨rfl, rfl, rfl, rfl⟩ rfl⟩
  · exact ⟨_, rfl, .of_sameMode (by constructor <;> rfl) ⟨rfl, rfl, rfl, rfl⟩ rfl⟩

/-- From what stands after a discrete call local computation proceeds. -/
theorem rests_proceeds {s : State} (h : Rests s s.rest) (hm : s.mode ≠ .memoryMapped) (hr : rangesOk s) :
    Proceeds s.mode (nextCall s.rest s) := by
  rcases h with h | h
  · exact position_proceeds h hm hr
  · obtain ⟨t, ht, hn⟩ := lastStmts_ended h s
    rw [ht]
    exact hn.bounded hm hr

/-- The end of the operation before the arm. -/
theorem finish_advances {s t : State} (hflash : Memory.wf s.params s.device.flash) (hport : s.tx = [] ∧ s.count = 0)
    (hw : s.window = none) (hs : SameOutside s t) (hb : Bounded s.mode t) : Advances s (finish t) := by
  refine ⟨finish_inv ?_ ?_ ?_ hb.ranges, hb.climbs⟩
  · rw [hs.params, hs.device]; exact hflash
  · rw [hs.tx, hs.count]; exact hport
  · rw [hs.window, hw, if_neg hb.unmapped]

/-- The fault keeps the invariant: the operands that crossed the page stay in the latches (R231, R237). -/
theorem raiseFatal_advances {s t : State} {c : Cause} (hflash : Memory.wf s.params s.device.flash)
    (hport : s.tx = [] ∧ s.count = 0) (hw : s.window = none) (hs : SameOutside s t)
    (h : Proceeds s.mode (.fatal t)) : Advances s (raiseFatal c t) := by
  obtain ⟨hb, hrx, hop, hpage⟩ := h
  refine ⟨?_, hb.climbs⟩
  exact {
    flash := by simpa [hs.params, hs.device] using hflash
    window := by simp [hs.window, hw, hb.unmapped]
    busy := nofun
    still := fun _ => ⟨rfl, hrx⟩
    port := by simpa [hs.tx, hs.count] using hport
    ranges := hb.ranges
    halted := fun _ => ⟨hop, hpage⟩ }

/-- A position between two steps keeps the invariant. -/
theorem Midway.inv {s : State} (h : Midway s) (hw : s.window = none) (hp : position s) : Inv s where
  flash := h.flash
  window := by rw [hw, if_neg h.unmapped]
  busy _ := ⟨h.unmapped, hp⟩
  still hb := absurd h.busy hb
  port := h.port
  ranges := h.ranges
  halted hc := by simp [h.busy] at hc

theorem Mode.rank_le_mapped (m : Mode) : m.rank ≤ Mode.memoryMapped.rank := by cases m <;> decide

/-- Settling after a transport call restores the invariant (R10). -/
theorem settle_advances {s : State} (h : Midway s) : Advances s (settle s) := by
  rcases h.place with ⟨hw, hrest⟩ | ⟨hw, hrest⟩
  · have hp := rests_proceeds hrest h.unmapped h.ranges
    rcases settle_cases s with ⟨hs, c, k, t, hn⟩ | ⟨t, hn, hs⟩ | ⟨t, hn, hs⟩ <;> rw [hs]
    · rcases hrest with hpos | hlast
      · exact ⟨h.inv hw hpos, Nat.le_refl _⟩
      · obtain ⟨u, hu, -⟩ := lastStmts_ended hlast s
        simp [hu] at hn
    · rw [hn] at hp
      exact finish_advances h.flash h.port hw (nextCall_ended_same hn) hp
    · rw [hn] at hp
      exact raiseFatal_advances h.flash h.port hw (nextCall_fatal_same hn) hp
  · have hend : nextCall s.rest s = .ended { s with mode := .memoryMapped } := by simp [hrest, nextCall, act]
    rw [settle_of_ended hend]
    exact ⟨finish_inv h.flash h.port hw h.ranges, s.mode.rank_le_mapped⟩

/-- A transport call changes nothing a position is about. -/
theorem transport_rests {k : Kind} {d : Descriptor} {n : Nat} {s : State} {l tx : List _} {m : Nat} (h : Rests s l) :
    Rests (transport k d n { s with rest := l, tx := tx, count := m }) l :=
  h.imp_left fun hp => by simpa [position, chunkInv] using hp

/-- A Busy step from where local computation proceeds, the port unarmed, keeps the invariant (R10). -/
theorem blockStep_advances {s t : State} (hflash : Memory.wf s.params s.device.flash) (hport : s.tx = [] ∧ s.count = 0)
    (hw : s.window = none) (hb : s.ctl = .busy) (hp : Proceeds s.mode (nextCall s.rest s))
    (h : blockStepWith runBus s = .next t) : Advances s t := by
  rcases blockStep_next h with ⟨c, l, u, i, d, n, hn, hi, hd, -, rfl⟩ | ⟨u, hn, rfl⟩ | ⟨u, hn, rfl⟩ <;> rw [hn] at hp
  · have hs := nextCall_call_same hn
    obtain ⟨hbound, hcall⟩ := hp
    have hmid : Midway (transport (kindOf i) d n { u with rest := l, tx := c.tx, count := c.count }) := {
      flash := by
        have := transport_wf (kindOf i) d n (s := { u with rest := l, tx := c.tx, count := c.count })
          (by simpa [hs.params, hs.device] using hflash)
        simpa using this
      port := by simp
      busy := by simpa [hs.ctl] using hb
      unmapped := by simpa using hbound.unmapped
      ranges := by simpa [rangesOk] using hbound.ranges
      place := by
        rcases hcall with ⟨hdisc, hrests⟩ | ⟨harm, rfl⟩
        · have hne : i ≠ .qioread := fun he => hdisc (he ▸ hi)
          exact .inl ⟨by simp [kindOf_ne_arm hne, hs.window, hw], by simpa using transport_rests hrests⟩
        · rw [harm] at hi
          cases hi
          cases hd
          exact .inr ⟨by simp [kindOf, busKind], by simp⟩ }
    obtain ⟨hinv, hrank⟩ := settle_advances hmid
    exact ⟨hinv, Nat.le_trans hbound.climbs (by simpa using hrank)⟩
  · exact finish_advances hflash hport hw (nextCall_ended_same hn) hp
  · exact raiseFatal_advances hflash hport hw (nextCall_fatal_same hn) hp

/-- An accepted request of an Idle block keeps the invariant where its pseudocode proceeds (R234). -/
theorem request_advances {code : BitVec 5} {o : Operands} {body : List Stmt} {s t : State} (hinv : Inv s)
    (hp : ∀ a, a = accept code o body s → operandRefusal o s.src = none → a.mode ≠ .memoryMapped → rangesOk a →
      a.rx = [] → a.op = code → Proceeds a.mode (nextCall body a))
    (h : request code o body s = .next t) : Advances s t := by
  obtain ⟨hacc, hstep⟩ := request_next h
  obtain ⟨hidle, hmode, hops⟩ := acceptRefusal_none hacc
  have hrx := (hinv.still (by simp [hidle])).2
  have hproceeds := hp _ rfl hops (by simpa using hmode) (accept_ranges hinv.ranges hops) (by simpa using hrx) (by simp)
  have hadv := blockStep_advances (s := accept code o body s) (by simpa using hinv.flash) (by simpa using hinv.port)
    (by simpa using hinv.window.trans (if_neg hmode)) rfl hproceeds hstep
  exact ⟨hadv.1, by simpa using hadv.2⟩

/-- The erases (R173 to R176). -/
theorem erase_advances {code : BitVec 5} {o : Operands} {cmd : Instr} {s t : State} (hinv : Inv s)
    (hpos : ∀ a, a = accept code o (eraseBody cmd) s → a.op = code → ∀ l ∈ eraseAt cmd, Rests a l)
    (h : request code o (eraseBody cmd) s = .next t) : Advances s t :=
  request_advances hinv (fun a ha _ hm hr _ hop => eraseBody_proceeds hm hr (hpos a ha hop)) h

/-- Every host operation that is accepted keeps the invariant. -/
theorem exec_advances {i : Instr} {code : BitVec 5} (hi : hostCode i = some code) {s t : State} (hinv : Inv s)
    (h : exec i s = .next t) : Advances s t := by
  cases i <;> cases hi
  case init => exact request_advances hinv (fun _ _ _ hm hr _ hop => initBody_proceeds hm hr hop) h
  case reset => exact request_advances hinv (fun _ _ _ hm hr _ hop => resetBody_proceeds hm hr hop) h
  case enableQuad => exact request_advances hinv (fun _ _ _ hm hr _ hop => enableQuadBody_proceeds hm hr hop) h
  case enterQpi => exact request_advances hinv (fun _ _ _ hm hr _ hop => enterQpi_proceeds hm hr hop) h
  case enterMemoryMap => exact request_advances hinv (fun _ _ _ hm hr _ hop => enterMemoryMap_proceeds hm hr hop) h
  case readSr1 => exact request_advances hinv (fun _ _ _ hm hr _ _ => readBody_proceeds hm hr (.inl rfl)) h
  case writeSr1 => exact request_advances hinv (fun _ _ _ hm hr _ _ => writeBody_proceeds hm hr (.inl rfl)) h
  case readCr => exact request_advances hinv (fun _ _ _ hm hr _ _ => readBody_proceeds hm hr (.inr rfl)) h
  case writeCr => exact request_advances hinv (fun _ _ _ hm hr _ _ => writeBody_proceeds hm hr (.inr rfl)) h
  case sectorErase | blockErase32k | blockErase64k | chipErase =>
    exact erase_advances hinv (fun _ ha _ l hl => .inl (by subst ha; exact hl)) h
  case pageProgram a n =>
    refine request_advances hinv (fun b hb ho hm hr hrx hop => ?_) h
    have haddr : b.addr = a ∧ b.len = n := by subst hb; exact ⟨rfl, rfl⟩
    obtain ⟨rfl, rfl⟩ := haddr
    exact pageProgram_proceeds hm hr hop (regionRefusal_none ho).1 hrx
  case writeRegion a n =>
    refine request_advances hinv (fun b hb ho hm hr _ hop => ?_) h
    obtain ⟨htop, henough⟩ := srcRegion_none ho
    exact startChunks_proceeds hop (by subst hb; exact htop) (by subst hb; exact henough) hm hr
  case readIdentify =>
    exact request_advances hinv
      (fun _ _ _ hm hr _ _ => lastCall_proceeds hm hr (i := .rdid) rfl nofun (by simp [lastStmts])) h
  case readRegion a n =>
    exact request_advances hinv
      (fun _ _ _ hm hr _ _ => lastCall_proceeds hm hr (i := .qread a) rfl nofun (by simp [lastStmts])) h

/-- The values at reset lie in the ranges of R24 and R25 (log entry 8). -/
theorem reset_ranges : rangesOk State.reset :=
  ⟨Nat.zero_le _, Nat.zero_le _, Nat.zero_le _, Nat.le_refl _, by decide, Nat.zero_le _⟩

theorem hardwareReset_inv {s : State} (hinv : Inv s) : Inv (hardwareReset s) where
  flash := hinv.flash
  window := rfl
  busy := nofun
  still _ := ⟨rfl, rfl⟩
  port := ⟨rfl, rfl⟩
  ranges := reset_ranges
  halted := nofun

/-- A move of the host keeps the invariant. -/
theorem hostMove_advances {s t : State} (hinv : Inv s) (hb : s.ctl ≠ .busy) (h : hostMove exec s = .next t) :
    Advances s t := by
  rcases hostMove_next h with ⟨-, rfl⟩ | ⟨r, ms, i, -, hidle, hi, hrun⟩ | ⟨address, k, ms, -, hload⟩
  · exact ⟨hinv, Nat.le_refl _⟩
  · obtain ⟨code, hcode⟩ := decodeHost_ok hi
    have hinv' : Inv { s with agenda := ms, src := r.src } :=
      ⟨hinv.flash, hinv.window, fun hbusy => absurd hbusy hb, hinv.still, hinv.port, hinv.ranges, hinv.halted⟩
    have hadv := exec_advances hcode hinv' hrun
    exact hadv
  · obtain ⟨-, -, -, -, rfl⟩ := mmapLoad_next hload
    exact ⟨⟨hinv.flash, hinv.window, fun hbusy => absurd hbusy hb, hinv.still, hinv.port, hinv.ranges, hinv.halted⟩,
      Nat.le_refl _⟩

/-- Every step but hardware reset keeps the invariant and moves the mode only upward (R37, R134). -/
theorem step_advances {s t : State} (hinv : Inv s) (hr : s.resetPending = false) (h : step s = .next t) :
    Advances s t := by
  rcases step_next h with ⟨hpending, -⟩ | ⟨-, hb, hstep⟩ | ⟨-, hb, hmove⟩
  · simp [hr] at hpending
  · obtain ⟨hmode, hpos⟩ := hinv.busy hb
    exact blockStep_advances hinv.flash hinv.port (hinv.window.trans (if_neg hmode)) hb
      (position_proceeds hpos hmode hinv.ranges) hstep
  · exact hostMove_advances hinv hb hmove

end Sys2Proof.Machine

namespace Sys2Proof.Proofs
open Sys2Proof.Machine Sys2Proof.Safety

/-- Settles O40: hardware reset makes the invariant hold, and every other step advances. -/
theorem everyStepKeepsInvariant : Obligations.EveryStepKeepsInvariant := by
  intro s t hinv h
  cases hr : s.resetPending with
  | true =>
    rw [step_of_resetPending hr] at h
    cases h
    exact hardwareReset_inv hinv
  | false => exact (step_advances hinv hr h).1

/-- Settles O2: a reset device array is canonical, and the values chosen are in their ranges. -/
theorem invariantHoldsAtReset : Obligations.InvariantHoldsAtReset where
  flash := Memory.wf_nil _
  window := rfl
  busy := nofun
  still _ := ⟨rfl, rfl⟩
  port := ⟨rfl, rfl⟩
  ranges := reset_ranges
  halted := nofun

/-- Settles O1: the values stand in `State.reset`. -/
theorem resetStateIsTheSpecs : Obligations.ResetStateIsTheSpecs := ⟨rfl, rfl, rfl, rfl, rfl⟩

end Sys2Proof.Proofs

/-! PROOFS. The trace behind `qia`, over every run. A position is `Backed` by the events made so far when each of its
statements that set `qia` finds an ENQPI and a WREN after it among them; every step keeps that, whatever the position.
With the invariant it gives the six clauses of R37 and says which operations set `qia` (R22). -/
namespace Sys2Proof.Machine
open Sys2Proof.Safety Sys2Proof.Claims

/-! ### Runs -/

/-- What every step keeps, every run keeps. -/
theorem RunsTo.keeps {P : State → Prop} (hP : ∀ s t, P s → step s = .next t → P t) {k : Nat} {s t : State} (hs : P s)
    (h : RunsTo k s t) : P t := by
  induction k generalizing s with
  | zero =>
    cases h
    exact hs
  | succ k ih =>
    simp only [RunsTo, Host.Core.run] at h
    split at h
    · exact ih (hP _ _ hs ‹_›) h
    · cases h
    · cases h

/-- No step leaves a hardware reset pending (log entry 14). -/
theorem step_resetPending {s t : State} (h : step s = .next t) : t.resetPending = false := by
  rcases step_next h with ⟨-, rfl⟩ | ⟨hr, -, hstep⟩ | ⟨hr, -, hmove⟩
  · rfl
  · exact (blockStep_kept hstep).resetPending.trans hr
  · rcases hostMove_next hmove with ⟨-, rfl⟩ | ⟨r, ms, i, -, -, -, hrun⟩ | ⟨address, k, ms, -, hload⟩
    · exact hr
    · exact (exec_kept hrun).resetPending.trans hr
    · obtain ⟨-, -, -, -, rfl⟩ := mmapLoad_next hload
      exact hr

/-! ### Events (R11) -/

/-- The events a call may make: those of the row its word decodes to. -/
def Call.makes (c : Call) (e : Event) : Prop :=
  ∃ i d n tx reply, decodeBus c.word = .ok i ∧ busDescriptor i = some d ∧ e = eventOf (kindOf i) d n tx reply

/-- An event of a row of R86. -/
def RowEvent (e : Event) : Prop :=
  ∃ i d n tx reply, busDescriptor i = some d ∧ e = eventOf (kindOf i) d n tx reply

theorem Call.makes.rowEvent {c : Call} {e : Event} (h : c.makes e) : RowEvent e := by
  obtain ⟨i, d, n, tx, reply, -, hd, rfl⟩ := h
  exact ⟨i, d, n, tx, reply, hd, rfl⟩

@[simp] theorem descriptorOf_eventOf (k : Kind) (d : Descriptor) (n : Nat) (tx reply : List Byte) :
    descriptorOf (eventOf k d n tx reply) = d := by cases k <;> rfl

/-- The descriptor of an event of a row is legal (R81). -/
theorem RowEvent.legal {e : Event} (h : RowEvent e) : (descriptorOf e).legal := by
  obtain ⟨i, d, n, tx, reply, hd, rfl⟩ := h
  rw [descriptorOf_eventOf]
  exact busDescriptor_legal hd

/-- The call of a command without a data phase makes its one event (R110). -/
theorem makes_command {i : Instr} {d : Descriptor} (hd : busDescriptor i = some d) (hk : busKind i = some .command)
    {e : Event} (h : (busCall i [] 0).makes e) : e = .cmd d := by
  obtain ⟨j, d', n, tx, reply, hj, hd', rfl⟩ := h
  rw [busCall_word hd, decodeBus_pack hd] at hj
  cases hj
  rw [hd] at hd'
  cases hd'
  simp [kindOf, hk, eventOf]

/-! ### Positions backed by the events made so far -/

/-- What R37 (b) asks of the trace: an ENQPI and a WREN after it. -/
def qpiEntry : List Event := [bare 0x38 .single, writeEnable]

/-- Each statement that sets `qia` finds `qpiEntry` in the events made before it, `es` being made so far. After a call of
ENTER_QPI `qia` is set, so `qpiEntry` has been made. -/
def Backed : List Event → List Stmt → Prop
  | _, [] => True
  | es, .issue c :: k => ∀ e, c.makes e → Backed (es ++ [e]) k
  | es, .setQpi :: k => qpiEntry.Sublist es ∧ Backed es k
  | es, .setMapped :: k => qpiEntry.Sublist es ∧ Backed es k
  | _, .enterQpi :: k => ∀ es', qpiEntry.Sublist es' → Backed es' k
  | es, _ :: k => Backed es k

/-- More events back as much. -/
theorem Backed.mono {es es' : List Event} {k : List Stmt} (h : Backed es k) (hsub : es.Sublist es') : Backed es' k := by
  induction k generalizing es es' with
  | nil => trivial
  | cons st k ih =>
    cases st with
    | issue c => exact fun e he => ih (h e he) (hsub.append_right [e])
    | setQpi => exact ⟨h.1.trans hsub, ih h.2 hsub⟩
    | setMapped => exact ⟨h.1.trans hsub, ih h.2 hsub⟩
    | enterQpi => exact h
    | _ => exact ih h hsub

theorem Backed.snoc {es : List Event} {k : List Stmt} (h : Backed es k) (e : Event) : Backed (es ++ [e]) k :=
  h.mono (List.sublist_append_left es [e])

/-- The rest of a page program needs no backing of its own. -/
theorem Backed.programRest {es : List Event} {k : List Stmt} (h : Backed es k) (c : Call) :
    Backed es (.issue c :: (waitUntilIdle ++ k)) := fun e _ => h.snoc e

/-- ENTER_QPI backs its own `mode <- QPI`: it makes the two calls before it (R132). -/
theorem backed_qpiTail (es : List Event) {k : List Stmt} (hk : ∀ es', qpiEntry.Sublist es' → Backed es' k) :
    Backed es (qpiTail k) := by
  intro e he e' he'
  have hentry : qpiEntry.Sublist (es ++ [e] ++ [e']) := by
    rw [makes_command rfl rfl he, makes_command rfl rfl he', List.append_assoc]
    exact List.sublist_append_right es qpiEntry
  exact ⟨hentry, hk _ hentry⟩

/-- Statements that do not set `qia` themselves. -/
def Stmt.plain : Stmt → Bool
  | .setQpi => false
  | .setMapped => false
  | _ => true

/-- They need no backing. -/
theorem backed_of_plain {k : List Stmt} (h : ∀ st ∈ k, st.plain = true) (es : List Event) : Backed es k := by
  induction k generalizing es with
  | nil => trivial
  | cons st k ih =>
    have hk := ih fun st hst => h st (List.mem_cons_of_mem _ hst)
    have hst := h st (List.mem_cons_self ..)
    cases st with
    | issue c => exact fun e _ => hk _
    | setQpi => cases hst
    | setMapped => cases hst
    | enterQpi => exact fun es' _ => hk es'
    | _ => exact hk es

/-! ### What backed statements do -/

/-- What the act of a backed statement has to leave, `k` to follow. -/
def ActBacked (es : List Event) (k : List Stmt) (s : State) : Act → Prop
  | .skip t => Backed es k ∧ (t.qia = true → qpiEntry.Sublist es)
  | .call c before t => t.qia = s.qia ∧ ∀ e, c.makes e → Backed (es ++ [e]) (before ++ k)
  | .fatal t => t.qia = s.qia

theorem pageProgramAct_backed {es : List Event} {before k : List Stmt} (h : Backed es (before ++ k)) (a : Addr)
    (n off : Nat) {s s' : State} (hs : s'.qia = s.qia) : ActBacked es k s (pageProgramAct a n off before s') := by
  unfold pageProgramAct
  split
  · exact hs
  · refine ⟨hs, fun e _ => ?_⟩
    rw [List.cons_append, List.append_assoc]
    exact (h.snoc e).programRest _

theorem act_backed {es : List Event} {st : Stmt} {k : List Stmt} {s : State} (h : Backed es (st :: k))
    (hq : s.qia = true → qpiEntry.Sublist es) : ActBacked es k s (act st s) := by
  cases st with
  | issue c => exact ⟨rfl, h⟩
  | readRegister op => exact ⟨rfl, fun e _ => Backed.snoc h e⟩
  | writeRegister op v => exact ⟨rfl, fun e _ => Backed.snoc h e⟩
  | testQe =>
    simp only [act]
    split
    · exact ⟨h, hq⟩
    · exact ⟨rfl, fun e _ => Backed.snoc h e⟩
  | raiseMode =>
    simp only [act]
    split
    · exact ⟨h, nofun⟩
    · exact ⟨h, hq⟩
  | enterQpi =>
    simp only [act]
    split
    · exact ⟨h es (hq ‹_›), hq⟩
    · exact ⟨rfl, fun e _ => backed_qpiTail _ h⟩
  | setQpi => exact ⟨h.2, fun _ => h.1⟩
  | setMapped => exact ⟨h.2, fun _ => h.1⟩
  | testWip =>
    simp only [act]
    split
    · exact ⟨rfl, fun e _ => Backed.snoc h e⟩
    · exact ⟨h, hq⟩
  | pageProgram a n off => exact pageProgramAct_backed (before := []) (k := k) h a n off rfl
  | chunkLoop =>
    simp only [act]
    split
    · exact ⟨h, hq⟩
    · exact pageProgramAct_backed (before := [.advance, .chunkLoop]) (k := k) h _ _ _ rfl
  | startChunks => exact ⟨h, hq⟩
  | advance => exact ⟨h, hq⟩
  | returnBytes => exact ⟨h, hq⟩
  | storeDst => exact ⟨h, hq⟩

/-- What local computation from a backed position leaves. -/
def PendingBacked (es : List Event) : Pending → Prop
  | .call c l t => (t.qia = true → qpiEntry.Sublist es) ∧ ∀ e, c.makes e → Backed (es ++ [e]) l
  | .ended t => t.qia = true → qpiEntry.Sublist es
  | .fatal t => t.qia = true → qpiEntry.Sublist es

theorem nextCall_backed {es : List Event} {k : List Stmt} {s : State} (h : Backed es k)
    (hq : s.qia = true → qpiEntry.Sublist es) : PendingBacked es (nextCall k s) := by
  induction k generalizing s with
  | nil => exact hq
  | cons st k ih =>
    have hact := act_backed h hq
    simp only [nextCall]
    cases ha : act st s with
    | skip t =>
      rw [ha] at hact
      exact ih hact.1 hact.2
    | call c before t =>
      rw [ha] at hact
      exact ⟨fun ht => hq (hact.1 ▸ ht), hact.2⟩
    | fatal t =>
      rw [ha] at hact
      exact fun ht => hq (hact ▸ ht)

/-! ### Steps and what they append -/

/-- Since the trace was `base` the events `es` have been made; they back the position, and `qia` if it is set. -/
structure Warranted (base es : List Event) (s : State) : Prop where
  trace : s.trace = base ++ es
  rest : Backed es s.rest
  qia : s.qia = true → qpiEntry.Sublist es

/-- Nothing appended, or one event of a row of R86 (R10). -/
def AppendsAtMostOne (es es' : List Event) : Prop := es' = es ∨ ∃ e, RowEvent e ∧ es' = es ++ [e]

theorem settle_warranted {base es : List Event} {s : State} (h : Warranted base es s) :
    Warranted base es (settle s) := by
  have hn := nextCall_backed h.rest h.qia
  rcases settle_cases s with ⟨hs, -⟩ | ⟨t, ht, hs⟩ | ⟨t, ht, hs⟩ <;> rw [hs]
  · exact h
  · rw [ht] at hn
    exact ⟨(nextCall_ended_same ht).trace.trans h.trace, trivial, hn⟩
  · rw [ht] at hn
    exact ⟨(nextCall_fatal_same ht).trace.trans h.trace, trivial, hn⟩

theorem blockStep_warranted {base es : List Event} {s t : State} (h : Warranted base es s)
    (hstep : blockStepWith runBus s = .next t) : ∃ es', AppendsAtMostOne es es' ∧ Warranted base es' t := by
  have hp := nextCall_backed h.rest h.qia
  rcases blockStep_next hstep with ⟨c, l, u, i, d, n, hn, hi, hd, -, rfl⟩ | ⟨u, hn, rfl⟩ | ⟨u, hn, rfl⟩ <;> rw [hn] at hp
  · obtain ⟨hq, hcall⟩ := hp
    have hmakes : c.makes (eventOf (kindOf i) d n c.tx
        (respond d n { u with rest := l, tx := c.tx, count := c.count }).1) := ⟨i, d, n, _, _, hi, hd, rfl⟩
    refine ⟨_, .inr ⟨_, hmakes.rowEvent, rfl⟩, settle_warranted ⟨?_, ?_, ?_⟩⟩
    · simp [(nextCall_call_same hn).trace, h.trace]
    · simpa using hcall _ hmakes
    · simpa [State.qia] using fun hu => (hq hu).trans (List.sublist_append_left es _)
  · exact ⟨es, .inl rfl, (nextCall_ended_same hn).trace.trans h.trace, trivial, hp⟩
  · exact ⟨es, .inl rfl, (nextCall_fatal_same hn).trace.trans h.trace, trivial, hp⟩

/-- The pseudocode of every operation is backed as it starts. -/
theorem exec_backed_request {i : Instr} {code : BitVec 5} (h : hostCode i = some code) :
    ∃ o body, (∀ s, exec i s = request code o body s) ∧ ∀ es, Backed es body := by
  cases i <;> cases h
  case enterMemoryMap =>
    exact ⟨_, _, fun _ => rfl, fun _ es hes e _ => ⟨hes.trans (List.sublist_append_left es [e]), trivial⟩⟩
  all_goals exact ⟨_, _, fun _ => rfl, backed_of_plain
    (by simp [resetBody, enableQuadBody, eraseBody, waitUntilIdle, Stmt.plain])⟩

/-- A move of the host to a block at rest. -/
theorem hostMove_warranted {base es : List Event} {s t : State} (h : Warranted base es s)
    (hmove : hostMove exec s = .next t) : ∃ es', AppendsAtMostOne es es' ∧ Warranted base es' t := by
  obtain ⟨htrace, hrest, hqia⟩ := h
  rcases hostMove_next hmove with ⟨-, rfl⟩ | ⟨r, ms, i, -, -, hi, hrun⟩ | ⟨address, k, ms, -, hload⟩
  · exact ⟨es, .inl rfl, htrace, hrest, hqia⟩
  · obtain ⟨code, hcode⟩ := decodeHost_ok hi
    obtain ⟨o, body, hreq, hbody⟩ := exec_backed_request hcode
    obtain ⟨-, hstep⟩ := request_next (hreq _ ▸ hrun)
    exact blockStep_warranted ⟨by simpa using htrace, hbody es, by simpa [State.qia] using hqia⟩ hstep
  · obtain ⟨-, -, -, -, rfl⟩ := mmapLoad_next hload
    exact ⟨es, .inl rfl, htrace, hrest, hqia⟩

/-- Every step but hardware reset appends at most one event, of a row of R86, and what is set by then is backed. -/
theorem step_warranted {base es : List Event} {s t : State} (h : Warranted base es s) (hr : s.resetPending = false)
    (hstep : step s = .next t) : ∃ es', AppendsAtMostOne es es' ∧ Warranted base es' t := by
  rcases step_next hstep with ⟨hpending, -⟩ | ⟨-, -, hblock⟩ | ⟨-, -, hmove⟩
  · simp [hr] at hpending
  · exact blockStep_warranted h hblock
  · exact hostMove_warranted h hmove

/-! ### Only ENTER_QPI sets `qia` (R22) -/

theorem qia_iff_rank (s : State) : s.qia = true ↔ 2 ≤ s.mode.rank := by
  unfold State.qia
  cases s.mode <;> decide

section
variable {k : List Stmt} (hk : ∀ st ∈ k, st.plain = true)
include hk

theorem resetAt_plain : ∀ l ∈ resetAt k, ∀ st ∈ l, st.plain = true := by
  simpa [resetAt, waitAt, waitUntilIdle, Stmt.plain, or_imp, forall_and] using hk

theorem quadAt_plain : ∀ l ∈ quadAt k, ∀ st ∈ l, st.plain = true := by
  simpa [quadAt, Stmt.plain, or_imp, forall_and] using hk

theorem programAt_plain (a : Addr) (tx : List Byte) : ∀ l ∈ programAt a tx k, ∀ st ∈ l, st.plain = true := by
  simpa [programAt, waitAt, waitUntilIdle, Stmt.plain, or_imp, forall_and] using hk

end

theorem eraseAt_plain (cmd : Instr) : ∀ l ∈ eraseAt cmd, ∀ st ∈ l, st.plain = true := by
  simp [eraseAt, waitAt, waitUntilIdle, Stmt.plain, or_imp, forall_and]

/-- The positions of every operation but ENTER_QPI and ENTER_MEMORY_MAP are of plain statements. -/
theorem position_plain {s : State} (h : position s) (h4 : s.op ≠ 0x04) (h5 : s.op ≠ 0x05) :
    ∀ st ∈ s.rest, st.plain = true := by
  have hnil : ∀ st ∈ ([] : List Stmt), st.plain = true := nofun
  have hquad : ∀ st ∈ enableQuadBody, st.plain = true := by decide
  unfold position at h
  split at h
  · exact h.elim (resetAt_plain hquad _) (quadAt_plain hnil _)
  · exact resetAt_plain hnil _ h
  · exact quadAt_plain hnil _ h
  · exact absurd (BitVec.eq_of_toNat_eq ‹_›) h4
  · exact absurd (BitVec.eq_of_toNat_eq ‹_›) h5
  · exact eraseAt_plain _ _ h
  · exact eraseAt_plain _ _ h
  · exact eraseAt_plain _ _ h
  · exact eraseAt_plain _ _ h
  · obtain ⟨-, -, tx, -, hrest⟩ := h
    exact programAt_plain hnil _ _ _ hrest
  · exact programAt_plain (by decide) _ _ _ h.2
  · exact h.elim

/-- From a state with `qia` clear and nothing on the way to set it, one step does not set it: it can make only one of
the two calls that have to come before. -/
theorem step_qia_of_plain {s t : State} (hplain : ∀ st ∈ s.rest, st.plain = true) (hq : s.qia = false)
    (hr : s.resetPending = false) (h : step s = .next t) : t.qia = false := by
  have hs : Warranted s.trace [] s := ⟨(List.append_nil _).symm, backed_of_plain hplain [], by simp [hq]⟩
  obtain ⟨es, hes, ht⟩ := step_warranted hs hr h
  have hone : es.length ≤ 1 := by
    rcases hes with rfl | ⟨e, -, rfl⟩ <;> simp
  cases htq : t.qia with
  | false => rfl
  | true =>
    have htwo : 2 ≤ es.length := (ht.qia htq).length_le
    omega

/-! ### The six clauses of R37 over runs -/

/-- What every step of a run that starts in the mode `m` keeps: the invariant, no reset pending, the mode not below
that of the start, the backing of the position by the whole trace, and legal descriptors (R37, R81). -/
structure RunInv (m : Mode) (s : State) : Prop where
  inv : Inv s
  noReset : s.resetPending = false
  climbs : m.rank ≤ s.mode.rank
  warranted : Warranted [] s.trace s
  legal : ∀ e ∈ s.trace, (descriptorOf e).legal

theorem RunInv.step {m : Mode} {s t : State} (h : RunInv m s) (hstep : step s = .next t) : RunInv m t := by
  obtain ⟨hinv, hrank⟩ := step_advances h.inv h.noReset hstep
  obtain ⟨es, hes, ht⟩ := step_warranted h.warranted h.noReset hstep
  have htrace : t.trace = es := ht.trace
  refine ⟨hinv, step_resetPending hstep, Nat.le_trans h.climbs hrank, htrace ▸ ht, ?_⟩
  rw [htrace]
  rcases hes with rfl | ⟨e, he, rfl⟩
  · exact h.legal
  · exact List.forall_mem_append.mpr ⟨h.legal, by simpa using he.legal⟩

/-- R37 (c), from the invariant. -/
theorem inv_window_isSome {s : State} (h : Inv s) : s.window.isSome = true ↔ s.mode = .memoryMapped := by
  rw [h.window]
  split <;> simp [*]

/-- R37 (e), from the invariant. -/
theorem inv_chunk {s : State} (h : Inv s) (hb : s.ctl = .busy) (hop : s.op = 0x0F) : chunkInv s := by
  have hpos := (h.busy hb).2
  simp only [position, hop] at hpos
  exact hpos.1

end Sys2Proof.Machine

namespace Sys2Proof.Proofs
open Sys2Proof.Machine Sys2Proof.Safety Sys2Proof.Claims

/-- Settles O43: the mode only climbs, so `qia` stays; and a step that sets it is of a Busy block whose position is not of
plain statements, which only the positions of the two operations are. -/
theorem quadInterfaceFlag : Obligations.QuadInterfaceFlag := by
  refine ⟨fun s => ?_, fun s t hinv hr h hq => ?_, fun s t hinv h hq ht => ?_⟩
  · unfold State.qia
    cases s.mode <;> decide
  · rw [qia_iff_rank] at hq ⊢
    exact Nat.le_trans hq (step_advances hinv hr h).2
  · have hr : s.resetPending = false := by
      by_contra hr
      rw [step_of_resetPending (by simpa using hr)] at h
      cases h
      cases ht
    have hset : ¬ ∀ st ∈ s.rest, st.plain = true := fun hplain => by
      simp [step_qia_of_plain hplain hq hr h] at ht
    have hb : s.ctl = .busy := by
      by_contra hb
      exact hset (by simp [(hinv.still hb).1])
    refine ⟨hb, ?_⟩
    by_contra hop
    rw [not_or] at hop
    exact hset (position_plain (hinv.busy hb).2 hop.1 hop.2)

/-- Settles O44, by induction over the run with `RunInv`, whose parts are the six clauses. -/
theorem reachableStateInvariants : Obligations.ReachableStateInvariants := by
  intro s t k hinv hidle hr ⟨hentry, hlegal⟩ hrun
  have hstart : RunInv s.mode s := by
    refine ⟨hinv, hr, Nat.le_refl _, ⟨rfl, ?_, hentry⟩, hlegal⟩
    rw [(hinv.still (by simp [hidle])).1]
    trivial
  have hend := RunsTo.keeps (fun _ _ => RunInv.step) hstart hrun
  refine ⟨hend.climbs, hend.warranted.qia, inv_window_isSome hend.inv, fun hc => ?_, fun hb hop => ?_, hend.legal⟩
  · obtain ⟨hop, hpage⟩ := hend.inv.halted hc
    exact ⟨hop, of_decide_eq_true hpage⟩
  · obtain ⟨-, -, -, hcur, hoff, -⟩ := inv_chunk hend.inv hb hop
    exact ⟨hcur, hoff⟩

end Sys2Proof.Proofs

/-! PROOFS. What a run cannot tell apart. The fields of `Hidden` are those of which some reader of a run may see nothing:
the mode, the trace and the registers of the block. No environment reads them. Two states are twins when they differ in
`Hidden` only as a `View` allows; the local statements read a register only where it is live. A step of twins has the
same outcome, and twins again where it is a next state (R21, R33, R38). -/
namespace Sys2Proof.Machine
open Sys2Proof.Safety Sys2Proof.Claims

/-! ### The hidden part of the state -/

/-- The tracked mode, the trace, the working registers and the operand latches (R21, R24, R25, R33). -/
structure Hidden where
  mode : Mode
  trace : List Event
  cursor : Nat
  remaining : Nat
  srcOff : Nat
  chunkLen : Nat
  op : BitVec 5
  addr : Addr
  len : Nat
  value : Byte

def State.hidden (s : State) : Hidden where
  mode := s.mode
  trace := s.trace
  cursor := s.cursor
  remaining := s.remaining
  srcOff := s.srcOff
  chunkLen := s.chunkLen
  op := s.op
  addr := s.addr
  len := s.len
  value := s.value

/-- The state with its hidden part replaced. -/
def State.wear (s : State) (h : Hidden) : State :=
  { s with
    mode := h.mode, trace := h.trace, cursor := h.cursor, remaining := h.remaining, srcOff := h.srcOff,
    chunkLen := h.chunkLen, op := h.op, addr := h.addr, len := h.len, value := h.value }

@[simp] theorem wear_ctl (s : State) (h : Hidden) : (s.wear h).ctl = s.ctl := rfl
@[simp] theorem wear_rx (s : State) (h : Hidden) : (s.wear h).rx = s.rx := rfl
@[simp] theorem wear_tx (s : State) (h : Hidden) : (s.wear h).tx = s.tx := rfl
@[simp] theorem wear_window (s : State) (h : Hidden) : (s.wear h).window = s.window := rfl
@[simp] theorem wear_src (s : State) (h : Hidden) : (s.wear h).src = s.src := rfl
@[simp] theorem wear_device (s : State) (h : Hidden) : (s.wear h).device = s.device := rfl
@[simp] theorem wear_env (s : State) (h : Hidden) : (s.wear h).env = s.env := rfl
@[simp] theorem wear_params (s : State) (h : Hidden) : (s.wear h).params = s.params := rfl
@[simp] theorem wear_mode (s : State) (h : Hidden) : (s.wear h).mode = h.mode := rfl
@[simp] theorem wear_trace (s : State) (h : Hidden) : (s.wear h).trace = h.trace := rfl
@[simp] theorem wear_cursor (s : State) (h : Hidden) : (s.wear h).cursor = h.cursor := rfl
@[simp] theorem wear_remaining (s : State) (h : Hidden) : (s.wear h).remaining = h.remaining := rfl
@[simp] theorem wear_srcOff (s : State) (h : Hidden) : (s.wear h).srcOff = h.srcOff := rfl
@[simp] theorem wear_chunkLen (s : State) (h : Hidden) : (s.wear h).chunkLen = h.chunkLen := rfl
@[simp] theorem wear_op (s : State) (h : Hidden) : (s.wear h).op = h.op := rfl
@[simp] theorem wear_addr (s : State) (h : Hidden) : (s.wear h).addr = h.addr := rfl
@[simp] theorem wear_len (s : State) (h : Hidden) : (s.wear h).len = h.len := rfl
@[simp] theorem wear_value (s : State) (h : Hidden) : (s.wear h).value = h.value := rfl

/-! ### No environment reads the hidden part (R31, R33, R117) -/

theorem programByte_wear (a : Nat) (b : Byte) (s : State) (h : Hidden) :
    programByte a b (s.wear h) = (programByte a b s).wear h := by
  by_cases hc : Memory.read s.params s.device.flash a = s.params.erasedByte
  · simp only [programByte, wear_params, wear_device, hc, ↓reduceIte]
    rfl
  · simp only [programByte, wear_params, wear_device, hc, ↓reduceIte]
    rfl

theorem programBytes_wear (a : Nat) (bs : List Byte) (s : State) (h : Hidden) :
    programBytes a bs (s.wear h) = (programBytes a bs s).wear h := by
  induction bs generalizing a s with
  | nil => rfl
  | cons b bs ih => rw [programBytes, programByte_wear, ih, programBytes]

theorem refEffect_wear (d : Descriptor) (tx : List Byte) (s : State) (h : Hidden) :
    refEffect d tx (s.wear h) = (refEffect d tx s).wear h := by
  unfold refEffect
  split
  case h_6 =>
    simp only [programBytes_wear]
    rfl
  all_goals rfl

theorem refReply_wear (d : Descriptor) (n : Nat) (s : State) (h : Hidden) :
    refReply d n (s.wear h) = ((refReply d n s).1, (refReply d n s).2.wear h) := by
  unfold refReply
  split
  case h_4 =>
    by_cases hc : (d.address.getD 0).toNat + n ≤ flashBytes s.params
    · simp only [wear_params, wear_device, hc, ↓reduceIte]
    · simp only [wear_params, hc, ↓reduceIte]
      rfl
  all_goals rfl

theorem respond_wear (d : Descriptor) (n : Nat) (s : State) (h : Hidden) :
    respond d n (s.wear h) = ((respond d n s).1, (respond d n s).2.wear h) := by
  simp only [respond, wear_env, wear_tx, refReply_wear, refEffect_wear]
  split
  · rfl
  · split <;> rfl

/-- A transport call, whatever the hidden part, does the same and appends the same event. -/
theorem transport_wear (k : Kind) (d : Descriptor) (n : Nat) (s : State) (h : Hidden) :
    transport k d n (s.wear h) =
      (transport k d n s).wear { h with trace := h.trace ++ [eventOf k d n s.tx (respond d n s).1] } := by
  simp only [transport, respond_wear]
  rfl

/-! ### Registers and where they are live (R24, R25) -/

/-- The registers of the block, those read and written together as one. -/
inductive Reg where
  | code
  | region
  | value
  | walk
  | chunk

/-- Two hidden parts agree on a register. -/
def Reg.agree (h h' : Hidden) : Reg → Prop
  | .code => h'.op = h.op
  | .region => h'.addr = h.addr ∧ h'.len = h.len
  | .value => h'.value = h.value
  | .walk => h'.cursor = h.cursor ∧ h'.remaining = h.remaining ∧ h'.srcOff = h.srcOff
  | .chunk => h'.chunkLen = h.chunkLen

/-- The registers a statement reads. -/
def Stmt.reads : Stmt → Reg → Bool
  | .writeRegister _ .latch, .value => true
  | .startChunks, .region => true
  | .chunkLoop, .walk => true
  | .advance, .walk => true
  | .advance, .chunk => true
  | _, _ => false

/-- The registers a statement writes whatever they held. -/
def Stmt.writes : Stmt → Reg → Bool
  | .startChunks, .walk => true
  | .chunkLoop, .chunk => true
  | _, _ => false

/-- A register is live before statements that read it before they write it. -/
def live : List Stmt → Reg → Bool
  | [], _ => false
  | st :: k, r => st.reads r || (!st.writes r && live k r)

/-! ### Twins -/

/-- In what twins may differ: the events each trace began with, whether SingleWire may be taken for QuadRegisterEnabled,
and whether registers that are not live may differ. -/
structure View where
  base : List Event
  base' : List Event
  wire : Prop
  blind : Prop

/-- Hidden parts that differ only as the view allows, the statements `k` to run. -/
structure Alike (v : View) (k : List Stmt) (h h' : Hidden) : Prop where
  mode : h'.mode = h.mode ∨ v.wire ∧ h.mode = .singleWire ∧ h'.mode = .quadRegisterEnabled
  trace : ∃ es, h.trace = v.base ++ es ∧ h'.trace = v.base' ++ es
  regs : ∀ r, (v.blind → live k r = true) → r.agree h h'

/-- States that differ only in the hidden part, and there only as the view allows. -/
def Twin (v : View) (k : List Stmt) (s s' : State) : Prop := ∃ h, s' = s.wear h ∧ Alike v k s.hidden h

section
variable {v : View} {k : List Stmt}

/-- Fewer live registers ask for less. -/
theorem Alike.mono {k' : List Stmt} {h h' : Hidden} (ha : Alike v k h h')
    (hk : ∀ r, live k' r = true → live k r = true) : Alike v k' h h' :=
  ⟨ha.mode, ha.trace, fun r hr => ha.regs r fun hv => hk r (hr hv)⟩

/-- A statement that is done asks for less, where it wrote no register. -/
theorem Alike.tail {st : Stmt} {h h' : Hidden} (ha : Alike v (st :: k) h h') (hw : ∀ r, st.writes r = false) :
    Alike v k h h' := ha.mono fun r hr => by simp [live, hw r, hr]

theorem Alike.qia {h h' : Hidden} (ha : Alike v k h h') : h'.mode.quadActive = h.mode.quadActive := by
  rcases ha.mode with hm | ⟨-, hm, hm'⟩
  · rw [hm]
  · rw [hm, hm']
    rfl

theorem Alike.mapped {h h' : Hidden} (ha : Alike v k h h') : h'.mode = .memoryMapped ↔ h.mode = .memoryMapped := by
  rcases ha.mode with hm | ⟨-, hm, hm'⟩
  · rw [hm]
  · simp [hm, hm']

/-! ### What acts of twins are -/

/-- Acts of twins: the same, and twins again. -/
inductive ActTwin (v : View) (k : List Stmt) : Act → Act → Prop
  | skip {t t' : State} (ht : Twin v k t t') : ActTwin v k (.skip t) (.skip t')
  | call {c : Call} {before : List Stmt} {t t' : State} (ht : Twin v (before ++ k) t t') :
    ActTwin v k (.call c before t) (.call c before t')
  | fatal {t t' : State} (ht : Twin v [] t t') : ActTwin v k (.fatal t) (.fatal t')

theorem registerCall_wear (op : Byte) (tx : List Byte) {s : State} {h : Hidden} (ha : Alike v k s.hidden h) :
    registerCall op tx (s.wear h) = registerCall op tx s := by
  simp only [registerCall, modeWidth, State.qia, wear_mode, ha.qia]
  rfl

/-- A register that a statement reads agrees before it. -/
theorem Alike.read {st : Stmt} {r : Reg} {h h' : Hidden} (ha : Alike v (st :: k) h h') (hr : st.reads r = true) :
    r.agree h h' := ha.regs r fun _ => by simp [live, hr]

/-- A register that a statement does not write agrees before it if it has to after it. -/
theorem Alike.kept {st : Stmt} {r : Reg} {h h' : Hidden} (ha : Alike v (st :: k) h h') (hw : st.writes r = false)
    (hr : v.blind → live k r = true) : r.agree h h' := ha.regs r fun hv => by simp [live, hw, hr hv]

/-- No statement writes an operand latch, so what a statement does to the working registers is all there is to compare,
where the statements `k'` it leaves read no latch that `k` does not. -/
theorem Alike.working {st : Stmt} {k' : List Stmt} {h h' : Hidden} (ha : Alike v (st :: k) h h')
    {c r o n c' r' o' n' : Nat} (hk : ∀ x, live k' x = true → x = .walk ∨ x = .chunk ∨ live k x = true)
    (hwalk : c' = c ∧ r' = r ∧ o' = o) (hchunk : (v.blind → live k' .chunk = true) → n' = n) :
    Alike v k' { h with cursor := c, remaining := r, srcOff := o, chunkLen := n }
      { h' with cursor := c', remaining := r', srcOff := o', chunkLen := n' } := by
  have hlatch : ∀ x : Reg, x ≠ .walk → x ≠ .chunk → (v.blind → live k' x = true) → x.agree h h' := fun x h1 h2 hx =>
    ha.kept (by cases st <;> cases x <;> trivial) fun hv => ((hk x (hx hv)).resolve_left h1).resolve_left h2
  refine ⟨ha.mode, ha.trace, fun x hx => ?_⟩
  cases x with
  | walk => exact hwalk
  | chunk => exact hchunk hx
  | code => exact hlatch .code nofun nofun hx
  | region => exact hlatch .region nofun nofun hx
  | value => exact hlatch .value nofun nofun hx

/-- The loop body and the loop read working registers only. -/
theorem live_loopBody (k : List Stmt) (x : Reg) (h : live ([.advance, .chunkLoop] ++ k) x = true) :
    x = .walk ∨ x = .chunk ∨ live k x = true := by
  cases x with
  | walk => exact .inl rfl
  | chunk => exact .inr (.inl rfl)
  | code => exact .inr (.inr h)
  | region => exact .inr (.inr h)
  | value => exact .inr (.inr h)

/-- The statements of a page program but the last ones touch no register. -/
theorem live_programRest (c : Call) (k : List Stmt) (r : Reg) :
    live (.issue c :: (waitUntilIdle ++ k)) r = live k r := by
  simp [live, waitUntilIdle, Stmt.reads, Stmt.writes]

theorem pageProgramAct_twin {before : List Stmt} {s : State} {h : Hidden} (a : Addr) (n off : Nat)
    (ha : Alike v (before ++ k) s.hidden h) :
    ActTwin v k (pageProgramAct a n off before s) (pageProgramAct a n off before (s.wear h)) := by
  cases hpage : crossesPage a n with
  | true =>
    rw [pageProgramAct_across hpage, pageProgramAct_across hpage]
    exact .fatal ⟨h, rfl, ha.mono nofun⟩
  | false =>
    rw [pageProgramAct_inside hpage, pageProgramAct_inside hpage]
    refine .call ⟨h, rfl, ha.mono fun r hr => ?_⟩
    rwa [List.cons_append, List.append_assoc, live_programRest] at hr

theorem raiseMode_twin {s : State} {h : Hidden} (ha : Alike v (.raiseMode :: k) s.hidden h) :
    ActTwin v k (act .raiseMode s) (act .raiseMode (s.wear h)) := by
  have hk : Alike v k s.hidden h := ha.tail fun _ => rfl
  by_cases hs : s.mode = .singleWire
  · rw [act_raiseMode_singleWire hs]
    by_cases hh : h.mode = .singleWire
    · rw [act_raiseMode_singleWire (s := s.wear h) hh]
      exact .skip ⟨{ h with mode := .quadRegisterEnabled }, rfl, .inl rfl, hk.trace, hk.regs⟩
    · rw [act_raiseMode_other (s := s.wear h) hh]
      have hq : h.mode = .quadRegisterEnabled := by
        rcases hk.mode with hm | ⟨-, -, hm⟩
        · exact absurd (hm.trans hs) hh
        · exact hm
      exact .skip ⟨h, rfl, .inl hq, hk.trace, hk.regs⟩
  · have hh : h.mode = s.mode := hk.mode.resolve_right fun hm => hs hm.2.1
    rw [act_raiseMode_other hs, act_raiseMode_other (s := s.wear h) (by simpa [hh] using hs)]
    exact .skip ⟨h, rfl, hk⟩

/-- The start of WRITE_REGION reads `addr` and `len`, and writes `cursor`, `remaining` and `src_off`. -/
theorem startChunks_twin {s : State} {h : Hidden} (ha : Alike v (.startChunks :: k) s.hidden h) :
    ActTwin v k (act .startChunks s) (act .startChunks (s.wear h)) := by
  obtain ⟨haddr, hlen⟩ := ha.read (r := .region) rfl
  exact .skip ⟨{ h with cursor := h.addr.toNat, remaining := h.len, srcOff := 0 }, rfl,
    ha.working (fun _ hx => .inr (.inr hx)) ⟨congrArg BitVec.toNat haddr, hlen, rfl⟩ (ha.kept (r := .chunk) rfl)⟩

/-- The end of the loop body reads the four working registers. -/
theorem advance_twin {s : State} {h : Hidden} (ha : Alike v (.advance :: k) s.hidden h) :
    ActTwin v k (act .advance s) (act .advance (s.wear h)) := by
  obtain ⟨hcur, hrem, hoff⟩ := ha.read (r := .walk) rfl
  have hchunk : h.chunkLen = s.chunkLen := ha.read (r := .chunk) rfl
  exact .skip ⟨{ h with
      cursor := h.cursor + h.chunkLen, srcOff := h.srcOff + h.chunkLen, remaining := h.remaining - h.chunkLen }, rfl,
    ha.working (fun _ hx => .inr (.inr hx))
      ⟨congrArg₂ (· + ·) hcur hchunk, congrArg₂ (· - ·) hrem hchunk, congrArg₂ (· + ·) hoff hchunk⟩ fun _ => hchunk⟩

/-- The head of the loop reads `cursor`, `remaining` and `src_off`, and writes `chunk_len` or frees all four. -/
theorem chunkLoop_twin {s : State} {h : Hidden} (ha : Alike v (.chunkLoop :: k) s.hidden h) :
    ActTwin v k (act .chunkLoop s) (act .chunkLoop (s.wear h)) := by
  obtain ⟨hcur, hrem, hoff⟩ := ha.read (r := .walk) rfl
  by_cases h0 : s.remaining = 0
  · rw [act_chunkLoop_done h0, act_chunkLoop_done (s := s.wear h) (hrem.trans h0)]
    exact .skip ⟨(freeWorking (s.wear h)).hidden, rfl,
      ha.working (fun _ hx => .inr (.inr hx)) ⟨rfl, rfl, rfl⟩ fun _ => rfl⟩
  · rw [act_chunkLoop_next h0, act_chunkLoop_next (s := s.wear h) (fun h1 => h0 (hrem.symm.trans h1))]
    rw [show (s.wear h).cursor = s.cursor from hcur, show (s.wear h).remaining = s.remaining from hrem,
      show (s.wear h).srcOff = s.srcOff from hoff]
    exact pageProgramAct_twin (h := { h with
        cursor := s.cursor, remaining := s.remaining, srcOff := s.srcOff,
        chunkLen := chunkLength s.cursor s.remaining }) _ _ _
      (ha.working (live_loopBody k) ⟨rfl, rfl, rfl⟩ fun _ => rfl)

/-- The acts of a statement on twins. -/
theorem act_twin {st : Stmt} {s s' : State} (ht : Twin v (st :: k) s s') : ActTwin v k (act st s) (act st s') := by
  obtain ⟨h, rfl, ha⟩ := ht
  cases st with
  | issue c => exact .call ⟨h, rfl, ha.tail fun _ => rfl⟩
  | readRegister op =>
    simp only [act, registerCall_wear op [] ha]
    exact .call ⟨h, rfl, ha.tail fun _ => rfl⟩
  | writeRegister op arg =>
    have harg : registerArg arg (s.wear h) = registerArg arg s := by
      cases arg with
      | latch => exact ha.read (r := .value) rfl
      | readWithQe => rfl
      | readParams => rfl
    simp only [act, harg, registerCall_wear op _ ha]
    exact .call ⟨h, rfl, ha.tail fun _ => rfl⟩
  | testQe =>
    cases hq : qeSet (firstByte s.rx) with
    | true =>
      rw [act_testQe_set hq, act_testQe_set (s := s.wear h) hq]
      exact .skip ⟨h, rfl, ha.tail fun _ => rfl⟩
    | false =>
      rw [act_testQe_clear hq, act_testQe_clear (s := s.wear h) hq, wear_rx, registerCall_wear _ _ ha]
      exact .call ⟨h, rfl,
        ha.mono fun r hr => by simpa [live, Stmt.reads, Stmt.writes] using hr⟩
  | raiseMode => exact raiseMode_twin ha
  | enterQpi =>
    have hqia : (s.wear h).qia = s.qia := ha.qia
    cases hq : s.qia with
    | true =>
      rw [act_enterQpi_set hq, act_enterQpi_set (hqia.trans hq)]
      exact .skip ⟨h, rfl, ha.tail fun _ => rfl⟩
    | false =>
      rw [act_enterQpi_clear hq, act_enterQpi_clear (hqia.trans hq), registerCall_wear _ _ ha]
      exact .call ⟨h, rfl,
        ha.mono fun r hr => by simpa [live, afterCrRead, Stmt.reads, Stmt.writes] using hr⟩
  | setQpi =>
    exact .skip ⟨{ h with mode := .qpi }, rfl, .inl rfl, ha.trace, (ha.tail fun _ => rfl : Alike v k _ _).regs⟩
  | setMapped =>
    exact .skip ⟨{ h with mode := .memoryMapped }, rfl, .inl rfl, ha.trace, (ha.tail fun _ => rfl : Alike v k _ _).regs⟩
  | testWip =>
    cases hw : wipSet (firstByte s.rx) with
    | true =>
      rw [act_testWip_set hw, act_testWip_set (s := s.wear h) hw, registerCall_wear _ _ ha]
      exact .call ⟨h, rfl, ha⟩
    | false =>
      rw [act_testWip_clear hw, act_testWip_clear (s := s.wear h) hw]
      exact .skip ⟨h, rfl, ha.tail fun _ => rfl⟩
  | pageProgram a n off => exact pageProgramAct_twin (before := []) (k := k) a n off (ha.tail fun _ => rfl)
  | startChunks => exact startChunks_twin ha
  | chunkLoop => exact chunkLoop_twin ha
  | advance => exact advance_twin ha
  | returnBytes => exact .skip ⟨h, rfl, ha.tail fun _ => rfl⟩
  | storeDst => exact .skip ⟨h, rfl, ha.tail fun _ => rfl⟩

/-- Where local computation from twins leads: to the same, and twins again. -/
inductive PendingTwin (v : View) : Pending → Pending → Prop
  | call {c : Call} {l : List Stmt} {t t' : State} (ht : Twin v l t t') : PendingTwin v (.call c l t) (.call c l t')
  | ended {t t' : State} (ht : Twin v [] t t') : PendingTwin v (.ended t) (.ended t')
  | fatal {t t' : State} (ht : Twin v [] t t') : PendingTwin v (.fatal t) (.fatal t')

theorem nextCall_twin {s s' : State} (ht : Twin v k s s') : PendingTwin v (nextCall k s) (nextCall k s') := by
  induction k generalizing s s' with
  | nil => exact .ended ht
  | cons st k ih =>
    have hact := act_twin ht
    simp only [nextCall]
    generalize act st s = a at hact
    generalize act st s' = a' at hact
    cases hact with
    | skip ht => exact ih ht
    | call ht => exact .call ht
    | fatal ht => exact .fatal ht

/-! ### Results on twins -/

/-- Twins between two steps. -/
def Twins (v : View) (s s' : State) : Prop := Twin v s.rest s s'

/-- The same outcome, and related states where it is a next state. -/
inductive Matches (R : State → State → Prop) : Result → Result → Prop
  | next {s s' : State} (h : R s s') : Matches R (.next s) (.next s')
  | fault (f : Fault) : Matches R (.fault f) (.fault f)
  | refused (r : Refusal) : Matches R (.refused r) (.refused r)

theorem finish_twin {s s' : State} (ht : Twin v [] s s') : Twins v (finish s) (finish s') := by
  obtain ⟨h, rfl, ha⟩ := ht
  refine ⟨(finish (s.wear h)).hidden, rfl, ha.mode, ha.trace, fun r hr => ?_⟩
  cases r with
  | walk => exact ha.regs .walk hr
  | chunk => exact ha.regs .chunk hr
  | code => rfl
  | region => exact ⟨rfl, rfl⟩
  | value => rfl

theorem raiseFatal_twin {c : Cause} {s s' : State} (ht : Twin v [] s s') :
    Twins v (raiseFatal c s) (raiseFatal c s') := by
  obtain ⟨h, rfl, ha⟩ := ht
  exact ⟨h, rfl, ha⟩

theorem settle_twin {s s' : State} (ht : Twins v s s') : Twins v (settle s) (settle s') := by
  have hrest : s'.rest = s.rest := by
    obtain ⟨h, rfl, -⟩ := ht
    rfl
  have hn := nextCall_twin ht
  unfold settle
  rw [hrest]
  generalize nextCall s.rest s = p at hn
  generalize nextCall s.rest s' = p' at hn
  cases hn with
  | call _ => exact ht
  | ended ht => exact finish_twin ht
  | fatal ht => exact raiseFatal_twin ht

theorem transport_twin (kind : Kind) (d : Descriptor) (n : Nat) {s s' : State} (ht : Twins v s s') :
    Twins v (transport kind d n s) (transport kind d n s') := by
  obtain ⟨h, rfl, ha⟩ := ht
  obtain ⟨es, hes, hes'⟩ := ha.trace
  refine ⟨_, transport_wear kind d n s h, ?_, ?_, ?_⟩
  · simpa [State.hidden] using ha.mode
  · refine ⟨es ++ [eventOf kind d n s.tx (respond d n s).1], ?_, ?_⟩
    · rw [← List.append_assoc, ← hes]
      exact transport_trace kind d n s
    · rw [← List.append_assoc, ← hes']
  · intro r hr
    have hreg := ha.regs r (by simpa using hr)
    cases r <;> simpa [Reg.agree, State.hidden] using hreg

theorem portOpen_twin {s s' : State} {r r' : Result} {R : State → State → Prop} (hw : s'.window = s.window)
    (hr : Matches R r r') : Matches R (portOpen s r) (portOpen s' r') := by
  simp only [portOpen, hw]
  split
  · exact .refused _
  · exact hr

theorem Twins.port {s s' : State} (ht : Twins v s s') : s'.window = s.window ∧ s'.tx = s.tx ∧ s'.count = s.count := by
  obtain ⟨h, rfl, -⟩ := ht
  exact ⟨rfl, rfl, rfl⟩

section
variable {s s' : State} (ht : Twins v s s')
include ht

theorem busCommand_twin (d : Descriptor) : Matches (Twins v) (busCommand d s) (busCommand d s') :=
  portOpen_twin ht.port.1 (.next (transport_twin _ d 0 ht))

theorem busArm_twin (d : Descriptor) : Matches (Twins v) (busArm d s) (busArm d s') :=
  portOpen_twin ht.port.1 (.next (transport_twin _ d 0 ht))

theorem busWrite_twin (d : Descriptor) (most : Nat) : Matches (Twins v) (busWrite d most s) (busWrite d most s') := by
  refine portOpen_twin ht.port.1 ?_
  rw [ht.port.2.1]
  split
  · exact .refused _
  · exact .next (transport_twin _ d 0 ht)

theorem busRead_twin (d : Descriptor) (n : Nat) : Matches (Twins v) (busRead d n s) (busRead d n s') := by
  refine portOpen_twin ht.port.1 ?_
  split
  · exact .refused _
  · exact .next (transport_twin _ d n ht)

/-- A bus command on twins (R86). -/
theorem runBus_twin (i : Instr) : Matches (Twins v) (runBus i s) (runBus i s') := by
  cases i
  case rsten | rst | wren | ce | se | be32 | be64 | enqpi => exact busCommand_twin ht _
  case qpp | srp | wrsr1 | wrcr => exact busWrite_twin ht _ _
  case rdid | rdsr1 | rdcr => exact busRead_twin ht _ _
  case qread =>
    simp only [runBus, execQread, ht.port.2.2]
    exact busRead_twin ht _ _
  case qioread => exact busArm_twin ht _
  all_goals exact .refused _

end

/-- A Busy step of twins (R10). -/
theorem blockStep_twin {s s' : State} (ht : Twins v s s') :
    Matches (Twins v) (blockStepWith runBus s) (blockStepWith runBus s') := by
  have hrest : s'.rest = s.rest := by
    obtain ⟨h, rfl, -⟩ := ht
    rfl
  have hn := nextCall_twin ht
  unfold blockStepWith
  rw [hrest]
  generalize nextCall s.rest s = p at hn
  generalize nextCall s.rest s' = p' at hn
  cases hn with
  | @call c l t t' ht =>
    have hissue : Matches (Twins v) (issueWith runBus c { t with rest := l })
        (issueWith runBus c { t' with rest := l }) := by
      obtain ⟨h, rfl, ha⟩ := ht
      unfold issueWith
      cases decodeBus c.word with
      | error e => exact .refused _
      | ok i => exact runBus_twin ⟨h, rfl, ha⟩ i
    simp only
    generalize issueWith runBus c { t with rest := l } = r at hissue
    generalize issueWith runBus c { t' with rest := l } = r' at hissue
    cases hissue with
    | next ht => exact .next (settle_twin ht)
    | fault f => exact .fault f
    | refused r => exact .refused r
  | ended ht => exact .next (finish_twin ht)
  | fatal ht => exact .next (raiseFatal_twin ht)

end

/-! ### Requests on twins (R25, R234) -/

/-- The registers an accepted request writes (R25); of an erase it writes `addr` and not `len`. -/
def Operands.latches : Operands → Reg → Bool
  | _, .code => true
  | .value _, .value => true
  | .dstRegion _ _, .region => true
  | .srcPage _ _, .region => true
  | .srcRegion _ _, .region => true
  | _, _ => false

/-- A register that no statement reads is not live. -/
theorem live_of_not_read {k : List Stmt} {x : Reg} (h : ∀ st ∈ k, st.reads x = false) : live k x = false := by
  induction k with
  | nil => rfl
  | cons st k ih =>
    rw [List.forall_mem_cons] at h
    simp [live, h.1, ih h.2]

theorem live_latch {op : Byte} {x : Reg} (h : live [.writeRegister op .latch] x = true) : x = .value := by
  cases x with
  | value => rfl
  | code | region | walk | chunk => cases h

theorem live_startChunks {x : Reg} (h : live [.startChunks, .chunkLoop] x = true) : x = .region := by
  cases x with
  | region => rfl
  | code | value | walk | chunk => cases h

/-- No operation reads a register before it has latched or written it (R38): two read the `value` operand, WRITE_REGION
its `addr` and `len`, and the others none. -/
theorem exec_live_request {i : Instr} {code : BitVec 5} (h : hostCode i = some code) :
    ∃ o body, (∀ s, exec i s = request code o body s) ∧ ∀ r, live body r = true → o.latches r = true := by
  cases i <;> cases h
  case writeSr1 v | writeCr v => exact ⟨_, _, fun _ => rfl, fun _ hr => live_latch hr ▸ rfl⟩
  case writeRegion a n => exact ⟨_, _, fun _ => rfl, fun _ hr => live_startChunks hr ▸ rfl⟩
  all_goals
    refine ⟨_, _, fun _ => rfl, fun r hr => ?_⟩
    rw [live_of_not_read (by
      simp [resetBody, enableQuadBody, eraseBody, waitUntilIdle, Stmt.reads])] at hr
    cases hr

section
variable {v : View}

/-- After acceptance twins agree on the registers latched, and on those they agreed on before. -/
theorem accept_agree {code : BitVec 5} {o : Operands} {body : List Stmt} {s : State} {h : Hidden} {r : Reg}
    (hr : o.latches r = true ∨ r.agree s.hidden h) :
    r.agree (accept code o body s).hidden (accept code o body (s.wear h)).hidden := by
  cases r with
  | code => simp [Reg.agree, State.hidden]
  | walk =>
    have hold := hr.resolve_left (by cases o <;> nofun)
    simpa [Reg.agree, State.hidden] using hold
  | chunk =>
    have hold := hr.resolve_left (by cases o <;> nofun)
    simpa [Reg.agree, State.hidden] using hold
  | region => cases o <;> simp_all [Reg.agree, Operands.latches, accept, latch, State.hidden]
  | value => cases o <;> simp_all [Reg.agree, Operands.latches, accept, latch, State.hidden]

theorem accept_twin {code : BitVec 5} {o : Operands} {body : List Stmt} {s s' : State} (ht : Twins v s s')
    (hbody : ∀ r, live body r = true → o.latches r = true) :
    Twins v (accept code o body s) (accept code o body s') := by
  obtain ⟨h, rfl, ha⟩ := ht
  have hwear : accept code o body (s.wear h) =
      (accept code o body s).wear (accept code o body (s.wear h)).hidden := by cases o <;> rfl
  refine ⟨_, hwear, ?_, ?_, fun r hr => accept_agree ?_⟩
  · simpa [State.hidden] using ha.mode
  · simpa [State.hidden] using ha.trace
  · by_cases hlatch : o.latches r = true
    · exact .inl hlatch
    · exact .inr (ha.regs r fun hv => absurd (hbody r (hr hv)) hlatch)

theorem acceptRefusal_twin (o : Operands) {s s' : State} (ht : Twins v s s') :
    acceptRefusal o s' = acceptRefusal o s := by
  obtain ⟨h, rfl, ha⟩ := ht
  have hmode : (s.wear h).mode = .memoryMapped ↔ s.mode = .memoryMapped := ha.mapped
  simp only [acceptRefusal, hmode, wear_ctl, wear_src]

theorem request_twin {code : BitVec 5} {o : Operands} {body : List Stmt} {s s' : State} (ht : Twins v s s')
    (hbody : ∀ r, live body r = true → o.latches r = true) :
    Matches (Twins v) (request code o body s) (request code o body s') := by
  unfold request
  rw [acceptRefusal_twin o ht]
  split
  · exact .refused _
  · exact blockStep_twin (accept_twin ht hbody)

/-! ### Moves of the host on twins -/

theorem decodeRefusal_mapped {m m' : Mode} (h : m' = .memoryMapped ↔ m = .memoryMapped) (e : DecodeError) :
    decodeRefusal m' e = decodeRefusal m e := by
  cases e <;> simp only [decodeRefusal, layoutRefusal, h]

theorem hostRequest_twin (r : Request) {s s' : State} (ht : Twins v s s') :
    Matches (Twins v) (hostRequest exec r s) (hostRequest exec r s') := by
  have hctl : s'.ctl = s.ctl := by
    obtain ⟨h, rfl, -⟩ := ht
    rfl
  have hmode : s'.mode = .memoryMapped ↔ s.mode = .memoryMapped := by
    obtain ⟨h, rfl, ha⟩ := ht
    exact ha.mapped
  have hsrc : Twins v { s with src := r.src } { s' with src := r.src } := by
    obtain ⟨h, rfl, ha⟩ := ht
    exact ⟨h, rfl, ha⟩
  cases hc : s.ctl with
  | halted =>
    simp only [hostRequest, hctl, hc]
    exact .refused _
  | busy =>
    simp only [hostRequest, hctl, hc]
    exact .refused _
  | idle =>
    cases hi : decodeHost r.word with
    | error e =>
      rw [hostRequest_error hc hi, hostRequest_error (hctl.trans hc) hi, decodeRefusal_mapped hmode]
      exact .refused _
    | ok i =>
      obtain ⟨code, hcode⟩ := decodeHost_ok hi
      obtain ⟨o, body, hreq, hbody⟩ := exec_live_request hcode
      rw [hostRequest_ok hc hi, hostRequest_ok (hctl.trans hc) hi, hreq, hreq]
      exact request_twin hsrc hbody

theorem mmapLoad_twin (address n : Nat) {s s' : State} (ht : Twins v s s') :
    Matches (Twins v) (mmapLoad address n s) (mmapLoad address n s') := by
  obtain ⟨h, rfl, ha⟩ := ht
  unfold mmapLoad
  rw [wear_window, wear_params, wear_device]
  split
  · exact .refused _
  split
  · exact .refused _
  split
  · exact .fault _
  · exact .next ⟨h, rfl, ha⟩

theorem hostMove_twin {s s' : State} (ht : Twins v s s') :
    Matches (Twins v) (hostMove exec s) (hostMove exec s') := by
  have hagenda : s'.agenda = s.agenda := by
    obtain ⟨h, rfl, -⟩ := ht
    rfl
  have hmoved : ∀ ms, Twins v { s with agenda := ms } { s' with agenda := ms } := by
    obtain ⟨h, rfl, ha⟩ := ht
    exact fun ms => ⟨h, rfl, ha⟩
  unfold hostMove
  rw [hagenda]
  split
  · exact .next ht
  · exact hostRequest_twin _ (hmoved _)
  · exact mmapLoad_twin _ _ (hmoved _)

/-! ### Steps and runs of twins -/

/-- Every step but hardware reset of twins. -/
theorem step_twin {s s' : State} (ht : Twins v s s') (hr : s.resetPending = false) :
    Matches (Twins v) (step s) (step s') := by
  obtain ⟨hr', hctl⟩ : s'.resetPending = false ∧ s'.ctl = s.ctl := by
    obtain ⟨h, rfl, -⟩ := ht
    exact ⟨hr, rfl⟩
  by_cases hb : s.ctl = .busy
  · rw [step_of_busy hr hb, step_of_busy hr' (hctl.trans hb)]
    exact blockStep_twin ht
  · rw [step_of_not_busy hr hb, step_of_not_busy hr' (hctl ▸ hb)]
    exact hostMove_twin ht

/-- A view that starts with nothing in either trace: twins then have the same trace. -/
def View.fromStart (wire blind : Prop) : View := ⟨[], [], wire, blind⟩

/-- Every state is its own twin. -/
theorem Twins.refl (wire blind : Prop) (s : State) : Twins (.fromStart wire blind) s s :=
  ⟨s.hidden, rfl, .inl rfl, ⟨s.trace, rfl, rfl⟩, fun r _ => by cases r <;> simp [Reg.agree]⟩

/-- Twins with the same trace step alike, hardware reset included: it makes them equal (R260). -/
theorem step_twin_fromStart {wire blind : Prop} {s s' : State} (ht : Twins (.fromStart wire blind) s s') :
    Matches (Twins (.fromStart wire blind)) (step s) (step s') := by
  cases hr : s.resetPending with
  | false => exact step_twin ht hr
  | true =>
    obtain ⟨h, rfl, -⟩ := ht
    rw [step_of_resetPending hr, step_of_resetPending (s := s.wear h) hr]
    exact .next (.refl wire blind (hardwareReset s))

/-- What every step of a pair keeps, every run of the pair keeps. -/
theorem RunsTo.simulates {R : State → State → Prop} (hR : ∀ s s', R s s' → Matches R (step s) (step s')) {k : Nat}
    {s s' t : State} (hs : R s s') (h : RunsTo k s t) : ∃ t', RunsTo k s' t' ∧ R t t' := by
  induction k generalizing s s' with
  | zero =>
    cases h
    exact ⟨s', rfl, hs⟩
  | succ k ih =>
    have hstep := hR s s' hs
    simp only [RunsTo, Host.Core.run, Sys2Proof.core] at h ⊢
    generalize step s = r at hstep h
    generalize step s' = r' at hstep ⊢
    cases hstep with
    | next hu => exact ih hu h
    | fault f => cases h
    | refused r => cases h

/-! ### What twins are in each view -/

/-- Where no register may differ, twins differ in the mode and the trace. -/
theorem Twin.eq_of_not_blind {k : List Stmt} {s s' : State} (ht : Twin v k s s') (hv : ¬ v.blind) :
    s' = { s with mode := s'.mode, trace := s'.trace } := by
  obtain ⟨h, rfl, ha⟩ := ht
  have hregs : ∀ r : Reg, r.agree s.hidden h := fun r => ha.regs r fun hb => absurd hb hv
  obtain ⟨hcur, hrem, hoff⟩ : h.cursor = s.cursor ∧ h.remaining = s.remaining ∧ h.srcOff = s.srcOff := hregs .walk
  have hchunk : h.chunkLen = s.chunkLen := hregs .chunk
  have hop : h.op = s.op := hregs .code
  obtain ⟨haddr, hlen⟩ : h.addr = s.addr ∧ h.len = s.len := hregs .region
  have hvalue : h.value = s.value := hregs .value
  simp only [State.wear, hcur, hrem, hoff, hchunk, hop, haddr, hlen, hvalue]

/-- Twins have the same `qia` (R22). -/
theorem Twin.qia_eq {k : List Stmt} {s s' : State} (ht : Twin v k s s') : s'.qia = s.qia := by
  obtain ⟨h, rfl, ha⟩ := ht
  exact ha.qia

/-- The same events were appended to the traces of twins. -/
theorem Twin.appended {k : List Stmt} {s s' : State} (ht : Twin v k s s') :
    ∃ es, s.trace = v.base ++ es ∧ s'.trace = v.base' ++ es := by
  obtain ⟨h, rfl, ha⟩ := ht
  exact ha.trace

/-- Where the modes may not differ either, in the trace alone. -/
theorem Twin.mode_eq {k : List Stmt} {s s' : State} (ht : Twin v k s s') (hv : ¬ v.wire) : s'.mode = s.mode := by
  obtain ⟨h, rfl, ha⟩ := ht
  exact ha.mode.resolve_right fun hw => hv hw.1

/-- Twins from the start have the same trace. -/
theorem Twins.trace_eq {wire blind : Prop} {s s' : State} (ht : Twins (.fromStart wire blind) s s') :
    s'.trace = s.trace := by
  obtain ⟨es, hes, hes'⟩ := Twin.appended ht
  exact hes'.trans hes.symm

/-- States that agree outside the registers are twins where no register is live. -/
theorem twins_of_agree {s s' : State} (hrest : s.rest = []) (h : AgreeOutsideRegisters s s') :
    Twins (.fromStart False True) s s' := by
  unfold AgreeOutsideRegisters at h
  have hmode : s'.mode = s.mode := (congrArg State.mode h :)
  have htrace : s'.trace = s.trace := (congrArg State.trace h :)
  refine ⟨s'.hidden, ?_, .inl hmode, ⟨s.trace, rfl, htrace⟩, fun r hr => ?_⟩
  · refine h.trans ?_
    simp only [State.wear, State.hidden, hmode, htrace]
  · exact absurd (hr trivial) (by simp [hrest, live])

/-- Twins with the same mode and trace agree outside the registers. -/
theorem Twins.agree {blind : Prop} {s s' : State} (ht : Twins (.fromStart False blind) s s') :
    AgreeOutsideRegisters s s' := by
  have hmode := Twin.mode_eq ht id
  have htrace := ht.trace_eq
  obtain ⟨h, rfl, -⟩ := ht
  rw [wear_mode] at hmode
  rw [wear_trace] at htrace
  simp only [AgreeOutsideRegisters, State.wear, hmode, htrace]

end

end Sys2Proof.Machine

namespace Sys2Proof.Proofs
open Sys2Proof.Machine Sys2Proof.Safety Sys2Proof.Claims

/-- Settles O48: the two states are twins in a view that takes SingleWire for QuadRegisterEnabled and hides no register. -/
theorem singleWireLooksLikeQuadRegister : Obligations.SingleWireLooksLikeQuadRegister := by
  intro s t k hmode hrun
  have hs : Twins (.fromStart True False) s { s with mode := .quadRegisterEnabled } :=
    ⟨{ s.hidden with mode := .quadRegisterEnabled }, rfl, .inr ⟨trivial, hmode, rfl⟩, ⟨s.trace, rfl, rfl⟩,
      fun r _ => by cases r <;> simp [Reg.agree]⟩
  obtain ⟨t', hrun', ht⟩ := RunsTo.simulates (fun _ _ => step_twin_fromStart) hs hrun
  have heq := Twin.eq_of_not_blind ht id
  rw [ht.trace_eq] at heq
  exact ⟨t', hrun', heq, Twin.qia_eq ht⟩

/-- Settles O49: the two states are twins in a view that hides no register and knows each trace by what was appended. -/
theorem traceIsGhostState : Obligations.TraceIsGhostState := by
  intro s tr hr
  have hs : Twins ⟨s.trace, tr, False, False⟩ s { s with trace := tr } :=
    ⟨{ s.hidden with trace := tr }, rfl, .inl rfl, ⟨[], by simp [State.hidden], by simp⟩,
      fun r _ => by cases r <;> simp [Reg.agree]⟩
  have hstep := step_twin hs hr
  generalize step s = r at hstep
  generalize step { s with trace := tr } = r' at hstep
  cases hstep with
  | @next t t' ht =>
    have heq := Twin.eq_of_not_blind ht id
    obtain ⟨es, hes, hes'⟩ := Twin.appended ht
    rw [Twin.mode_eq ht id, hes'] at heq
    have hdrop : t.trace.drop s.trace.length = es := by rw [hes, List.drop_left]
    simp only [heq, hdrop]
  | fault f => rfl
  | refused r => rfl

/-- Settles O50: the two states are twins in a view that hides the registers that are not live, and of a block at rest
none is live. -/
theorem idleRegistersDoNotMatter : Obligations.IdleRegistersDoNotMatter := by
  intro s s' t k hinv hidle hagree hrun
  have hrest : s.rest = [] := (hinv.still (by simp [hidle])).1
  obtain ⟨t', hrun', ht⟩ :=
    RunsTo.simulates (fun _ _ => step_twin_fromStart) (twins_of_agree hrest hagree) hrun
  exact ⟨t', hrun', ht.agree⟩

end Sys2Proof.Proofs

/-! PROOFS. The flash array (spec/20_memory.md): what a load through the window reads of it, and how far the reference
device changes it. A step is `FramedByEvent` when it changed no byte but those the one event it appended touches; the rows
of R86 decide it for a transport call, and no other part of a step reaches the device. -/
namespace Sys2Proof.Machine
open Sys2Proof.Claims

/-! ### Loads (R55, R57) -/

/-- A load of some bytes, all of them inside the armed window, gives the host the little-endian word of the range. -/
theorem mmapLoad_inside {s : State} {o k : Nat} (hw : s.window.isSome = true) (hk : 1 ≤ k)
    (ho : o + k ≤ flashBytes s.params) :
    mmapLoad (s.params.mmapBase + o) k s =
      .next { s with loaded := some (littleEndian (Memory.readBytes s.params s.device.flash o k)) } := by
  rw [mmapLoad, if_neg (by simp [Option.isSome_iff_ne_none.mp hw]), if_neg (by omega), if_neg (by omega),
    Nat.add_sub_cancel_left]

/-! ### What the reference device leaves of the array (R53, R58) -/

/-- A programmed byte leaves every other address alone. -/
theorem programByte_flashAt_other {s : State} (hwf : Memory.wf s.params s.device.flash) {a b : Nat} (v : Byte)
    (hb : b ≠ a) : flashAt (programByte a v s) b = flashAt s b := by
  unfold programByte flashAt
  split <;> exact Memory.read_write_other _ hwf hb

/-- A program leaves every address outside its range alone. -/
theorem programBytes_flashAt_outside {s : State} (hwf : Memory.wf s.params s.device.flash) {a b : Nat} {bs : List Byte}
    (hb : b < a ∨ a + bs.length ≤ b) : flashAt (programBytes a bs s) b = flashAt s b := by
  induction bs generalizing a s with
  | nil => rfl
  | cons v bs ih =>
    have hwf' : Memory.wf (programByte a v s).params (programByte a v s).device.flash := by
      rw [programByte_params]
      exact programByte_wf a v hwf
    rw [List.length_cons] at hb
    calc flashAt (programBytes (a + 1) bs (programByte a v s)) b
      _ = flashAt (programByte a v s) b := ih hwf' (by omega)
      _ = flashAt s b := programByte_flashAt_other hwf v (by omega)

/-- A read after an erase: `ERASED_BYTE` in the region of the address, as before outside it. -/
theorem eraseRegion_flashAt (a size : Nat) (s : State) (b : Nat) :
    flashAt (eraseRegion a size s) b =
      if a - a % size ≤ b ∧ b < a - a % size + size then s.params.erasedByte else flashAt s b :=
  Memory.read_erase s.params s.device.flash (a - a % size) size b

/-- An erase leaves every byte alone but those of the region. -/
theorem eraseRegion_flashAt_or {a size : Nat} (s : State) (b : Nat) :
    flashAt (eraseRegion a size s) b = flashAt s b ∨ a - a % size ≤ b ∧ b < a - a % size + size := by
  rw [eraseRegion_flashAt]
  split
  · exact .inr ‹_›
  · exact .inl rfl

/-- The effect of a row of R86 on the reference device is on no byte but those its event touches. -/
theorem refEffect_flashAt_row {i : Instr} {d : Descriptor} (hd : busDescriptor i = some d) {s : State}
    (hwf : Memory.wf s.params s.device.flash) (tx reply : List Byte) (n b : Nat) :
    flashAt (refEffect d tx s) b = flashAt s b ∨ touches s.params (eventOf (kindOf i) d n tx reply) b := by
  cases i <;> cases hd
  case se a => exact (eraseRegion_flashAt_or s b).imp_right fun h => .inl ⟨rfl, h⟩
  case be32 a => exact (eraseRegion_flashAt_or s b).imp_right fun h => .inr (.inl ⟨rfl, h⟩)
  case be64 a => exact (eraseRegion_flashAt_or s b).imp_right fun h => .inr (.inr (.inl ⟨rfl, h⟩))
  case ce => exact .inr (.inr (.inr (.inr rfl)))
  case qpp a =>
    by_cases hb : a.toNat ≤ b ∧ b < a.toNat + tx.length
    · exact .inr ⟨rfl, hb⟩
    · have hout : b < a.toNat ∨ a.toNat + tx.length ≤ b := by omega
      exact .inl (programBytes_flashAt_outside hwf hout)
  all_goals exact .inl rfl

/-- The same of the environment's whole part in a call: what it replies to a read leaves the device alone. -/
theorem respond_flashAt_row {i : Instr} {d : Descriptor} (hd : busDescriptor i = some d) {s : State}
    (henv : s.env = .refFlash) (hwf : Memory.wf s.params s.device.flash) (n b : Nat) (reply : List Byte) :
    flashAt (respond d n s).2 b = flashAt s b ∨ touches s.params (eventOf (kindOf i) d n s.tx reply) b := by
  simp only [respond, henv]
  split
  · exact refEffect_flashAt_row hd hwf s.tx reply n b
  · have hwf' : Memory.wf (refReply d n s).2.params (refReply d n s).2.device.flash := by
      rwa [refReply_params, refReply_device]
    simpa [flashAt, refReply_device] using refEffect_flashAt_row hd hwf' s.tx reply n b

/-! ### What a step leaves of the array -/

/-- No byte of the array has changed from `s` to `t` but those touched by the one event `t` has appended. -/
def FramedByEvent (s t : State) : Prop :=
  ∀ b, flashAt t b = flashAt s b ∨ ∃ e, t.trace = s.trace ++ [e] ∧ touches s.params e b

theorem FramedByEvent.of_device {s t : State} (hp : t.params = s.params) (hd : t.device = s.device) :
    FramedByEvent s t := fun b => .inl (by simp [flashAt, hp, hd])

/-- Only the parameters, the device and the trace of the first state matter. -/
theorem FramedByEvent.from_same {s s' t : State} (h : FramedByEvent s' t) (hp : s'.params = s.params)
    (hd : s'.device = s.device) (ht : s'.trace = s.trace) : FramedByEvent s t := by
  simpa only [FramedByEvent, flashAt, hp, hd, ht] using h

theorem FramedByEvent.settle {s t : State} (h : FramedByEvent s t) : FramedByEvent s (settle t) := by
  obtain ⟨ht, -, hp, -, hd, -⟩ := settle_outside t
  simpa only [FramedByEvent, flashAt, hp, hd, ht] using h

/-- A transport call of a row of R86 on the reference device. -/
theorem transport_framed {i : Instr} {d : Descriptor} (hd : busDescriptor i = some d) {s : State}
    (henv : s.env = .refFlash) (hwf : Memory.wf s.params s.device.flash) (n : Nat) :
    FramedByEvent s (transport (kindOf i) d n s) := fun b =>
  (respond_flashAt_row hd henv hwf n b (respond d n s).1).imp (by simp [flashAt]) fun h =>
    ⟨_, transport_trace _ _ _ _, h⟩

/-- A step of a Busy block: only the transport call, where it makes one, reaches the device. -/
theorem blockStep_framed {s t : State} (henv : s.env = .refFlash) (hwf : Memory.wf s.params s.device.flash)
    (h : blockStepWith runBus s = .next t) : FramedByEvent s t := by
  rcases blockStep_next h with ⟨c, k, s', i, d, n, hn, -, hd, -, rfl⟩ | ⟨s', hn, rfl⟩ | ⟨s', hn, rfl⟩
  · have hs := nextCall_call_same hn
    have hcall := transport_framed hd (s := { s' with rest := k, tx := c.tx, count := c.count }) (hs.env.trans henv)
      (by simpa only [hs.params, hs.device] using hwf) n
    exact hcall.settle.from_same hs.params hs.device hs.trace
  · have hs := nextCall_ended_same hn
    exact .of_device hs.params hs.device
  · have hs := nextCall_fatal_same hn
    exact .of_device hs.params hs.device

/-- A move of the host: of the three only a request reaches the device, in the first step of its operation. -/
theorem hostMove_framed {s t : State} (henv : s.env = .refFlash) (hwf : Memory.wf s.params s.device.flash)
    (h : hostMove exec s = .next t) : FramedByEvent s t := by
  rcases hostMove_next h with ⟨-, rfl⟩ | ⟨r, ms, i, -, -, hi, hrun⟩ | ⟨address, k, ms, -, hload⟩
  · exact .of_device rfl rfl
  · obtain ⟨code, hcode⟩ := decodeHost_ok hi
    obtain ⟨o, body, hreq⟩ := exec_request hcode
    obtain ⟨-, hstep⟩ := request_next (hreq _ ▸ hrun)
    exact (blockStep_framed (by simpa using henv) (by simpa using hwf) hstep).from_same (by simp) (by simp) (by simp)
  · obtain ⟨-, -, -, -, rfl⟩ := mmapLoad_next hload
    exact .of_device rfl rfl

end Sys2Proof.Machine

namespace Sys2Proof.Proofs
open Sys2Proof.Machine Sys2Proof.Safety Sys2Proof.Claims

/-- Settles O38: the load is the host's move, and the word of a range is the sum over its bytes. -/
theorem windowLoadIsLittleEndian : Obligations.WindowLoadIsLittleEndian := by
  intro s o k ms hr hb hw ha hk ho
  rw [step_of_not_busy hr hb, hostMove, ha]
  exact (mmapLoad_inside (s := { s with agenda := ms }) hw hk ho).trans (by rw [littleEndian_readBytes]; rfl)

/-- Settles O52, by what a step can be: hardware reset leaves the device alone, and the others are framed by their event. -/
theorem flashChangesOnlyByEvent : Obligations.FlashChangesOnlyByEvent := by
  intro s t henv hwf h
  rcases step_next h with ⟨-, rfl⟩ | ⟨-, -, hstep⟩ | ⟨-, -, hmove⟩
  · exact FramedByEvent.of_device rfl rfl
  · exact blockStep_framed henv hwf hstep
  · exact hostMove_framed henv hwf hmove

end Sys2Proof.Proofs

/-! PROOFS. Encodings (spec/30_encoding.md). The decoder is inverted on each kind of word: a bus word decodes to the
row its unpacked descriptor is (R97), a request word to the operation whose code and operands its fields are (R85, R87).
Both packings are one to one, so decoding and encoding agree. -/
namespace Sys2Proof

/-! ### Width codes and descriptors (R82, R83) -/

/-- The code `10` is the only one that is no width (R82). -/
theorem widthOfCode_eq_none_iff (c : BitVec 2) : widthOfCode c = none ↔ c = 0b10 := by
  revert c
  decide

/-- A width has one code. -/
theorem code_of_widthOfCode {c : BitVec 2} {w : Width} (h : widthOfCode c = some w) : w.code = c := by
  revert c
  cases w <;> decide

/-- A bus word is its six fields put together (R83). -/
theorem bus_fields_append (w : BusWord) :
    w.extractLsb' 35 8 ++ (w.extractLsb' 33 2 ++ (w.extractLsb' 31 2 ++
      (w.extractLsb' 29 2 ++ (w.extractLsb' 24 5 ++ w.extractLsb' 0 24)))) = w := by
  rw [BitVec.extractLsb'_append_extractLsb'_eq_extractLsb' (by rfl),
    BitVec.extractLsb'_append_extractLsb'_eq_extractLsb' (by rfl),
    BitVec.extractLsb'_append_extractLsb'_eq_extractLsb' (by rfl),
    BitVec.extractLsb'_append_extractLsb'_eq_extractLsb' (by rfl),
    BitVec.extractLsb'_append_extractLsb'_eq_extractLsb' (by rfl)]
  exact BitVec.extractLsb'_eq_self

/-- Packing what was unpacked gives the word again: no bit of it is dropped (R83). -/
theorem pack_of_unpack {w : BusWord} {d : Descriptor} (h : unpack w = .ok d) : d.pack = w := by
  unfold unpack at h
  split at h
  · rename_i iw aw dw hiw haw hdw
    have hfields := bus_fields_append w
    rw [← code_of_widthOfCode hiw, ← code_of_widthOfCode haw, ← code_of_widthOfCode hdw] at hfields
    dsimp only at h
    split at h
    · split at h
      · rename_i hzero
        cases h
        rwa [hzero] at hfields
      · cases h
    · cases h
      exact hfields
  · cases h

/-- A reserved width code makes a word no descriptor (R82, R90). -/
theorem unpack_reservedWidth {w : BusWord}
    (h : w.extractLsb' 33 2 = 0b10 ∨ w.extractLsb' 31 2 = 0b10 ∨ w.extractLsb' 29 2 = 0b10) :
    unpack w = .error .reservedWidth := by
  simp only [← widthOfCode_eq_none_iff] at h
  unfold unpack
  split
  · simp_all
  · rfl

/-- So do address bits without an address width (R83, R90). -/
theorem unpack_addressWithoutWidth {w : BusWord} (hiw : w.extractLsb' 33 2 ≠ 0b10) (haw : w.extractLsb' 31 2 = 0b00)
    (hdw : w.extractLsb' 29 2 ≠ 0b10) (ha : w.extractLsb' 0 24 ≠ 0) : unpack w = .error .addressWithoutWidth := by
  obtain ⟨iw, hiw⟩ := Option.ne_none_iff_exists'.mp (mt (widthOfCode_eq_none_iff _).mp hiw)
  obtain ⟨dw, hdw⟩ := Option.ne_none_iff_exists'.mp (mt (widthOfCode_eq_none_iff _).mp hdw)
  have haw : widthOfCode (w.extractLsb' 31 2) = some .none := by rw [haw]; rfl
  simpa [unpack, hiw, haw, hdw] using ha

theorem decodeBus_of_unpack_error {w : BusWord} {e : DecodeError} (h : unpack w = .error e) :
    decodeBus w = .error e := by simp [decodeBus, h]

/-- A bus word decodes to a row of R86 exactly when it is the row's packed descriptor (R97). -/
theorem decodeBus_eq_ok_iff {w : BusWord} {i : Instr} :
    decodeBus w = .ok i ↔ ∃ d, busDescriptor i = some d ∧ d.pack = w := by
  constructor
  · intro h
    obtain ⟨d, hw, hd⟩ := decodeBus_ok h
    exact ⟨d, hd, pack_of_unpack hw⟩
  · rintro ⟨d, hd, rfl⟩
    exact decodeBus_pack hd

/-! ### Request words (R85, R87, R91) -/

/-- What an operation without operands is decoded from. -/
theorem takesNothing_eq_ok_iff {i j : Instr} {f : RequestFields} :
    takesNothing i f = .ok j ↔ i = j ∧ f.addr = 0 ∧ f.len = 0 ∧ f.value = 0 := by
  unfold takesNothing
  split <;> simp_all

theorem takesValue_eq_ok_iff {i : Byte → Instr} {j : Instr} {f : RequestFields} :
    takesValue i f = .ok j ↔ i f.value = j ∧ f.addr = 0 ∧ f.len = 0 := by
  unfold takesValue
  split <;> simp_all

theorem takesAddr_eq_ok_iff {i : Addr → Instr} {j : Instr} {f : RequestFields} :
    takesAddr i f = .ok j ↔ i f.addr = j ∧ f.len = 0 ∧ f.value = 0 := by
  unfold takesAddr
  split <;> simp_all

theorem takesRegion_eq_ok_iff {i : Addr → Nat → Instr} {j : Instr} {f : RequestFields} :
    takesRegion i f = .ok j ↔ i f.addr f.len.toNat = j ∧ f.value = 0 ∧ lengthOk f.len.toNat = true := by
  unfold takesRegion
  split <;> (try split) <;> simp_all

/-- A length in range is read back from its field. -/
theorem takesRegion_ofNat {i : Addr → Nat → Instr} {op : BitVec 5} {a : Addr} {n : Nat} (h : lengthOk n = true) :
    takesRegion i { op := op, addr := a, len := BitVec.ofNat 25 n, value := 0 } = .ok (i a n) :=
  takesRegion_eq_ok_iff.mpr ⟨by rw [length_roundtrip h], rfl, by rwa [length_roundtrip h]⟩

/-- The fields of a request word that are an operation's: its code and its operands (R87). -/
def RequestFields.areOf (f : RequestFields) (i : Instr) : Prop :=
  hostCode i = some f.op ∧ hostOperands i = (f.addr, f.len, f.value)

/-- What fields decode to they are the fields of, and its length is in range. -/
theorem areOf_of_decodeFields {f : RequestFields} {i : Instr} (h : decodeFields f = .ok i) :
    f.areOf i ∧ i.wellFormed = true := by
  obtain ⟨op, a, n, v⟩ := f
  have hop : ∀ c : BitVec 5, op.toNat = c.toNat → some c = some op := fun c hc =>
    congrArg some (BitVec.eq_of_toNat_eq hc.symm)
  unfold decodeFields at h
  split at h
  case h_7 | h_9 =>
    obtain ⟨rfl, rfl, rfl⟩ := takesValue_eq_ok_iff.mp h
    exact ⟨⟨hop _ ‹_›, rfl⟩, rfl⟩
  case h_10 | h_11 | h_12 =>
    obtain ⟨rfl, rfl, rfl⟩ := takesAddr_eq_ok_iff.mp h
    exact ⟨⟨hop _ ‹_›, rfl⟩, rfl⟩
  case h_14 | h_15 | h_17 =>
    obtain ⟨rfl, rfl, hlen⟩ := takesRegion_eq_ok_iff.mp h
    exact ⟨⟨hop _ ‹_›, by simp [hostOperands]⟩, hlen⟩
  case h_18 => cases h
  all_goals
    obtain ⟨rfl, rfl, rfl, rfl⟩ := takesNothing_eq_ok_iff.mp h
    exact ⟨⟨hop _ ‹_›, rfl⟩, rfl⟩

/-- The fields of a well-formed operation decode to it. -/
theorem decodeFields_of_areOf {f : RequestFields} {i : Instr} (h : f.areOf i) (hwf : i.wellFormed = true) :
    decodeFields f = .ok i := by
  obtain ⟨op, a, n, v⟩ := f
  obtain ⟨hcode, hoperands⟩ := h
  cases i <;> cases hcode <;> cases hoperands
  case pageProgram | writeRegion | readRegion =>
    exact takesRegion_ofNat hwf
  all_goals rfl

/-- The codes `0x00` and `0x12` to `0x1F` select no operation (R91). -/
theorem decodeFields_unassigned {f : RequestFields} (h : f.op = 0 ∨ 0x12 ≤ f.op.toNat) :
    decodeFields f = .error .unassignedCode := by
  have hrange : f.op.toNat = 0 ∨ 0x12 ≤ f.op.toNat := h.imp_left (congrArg BitVec.toNat)
  unfold decodeFields
  split
  case h_18 => rfl
  all_goals omega

/-- A request word decodes to an operation exactly when its fields do and its unused bits are clear (log entry 11). -/
theorem decodeHost_eq_ok_iff {w : HostWord} {i : Instr} :
    decodeHost w = .ok i ↔
      decodeFields (requestFields w) = .ok i ∧ w.extractLsb' 5 3 = 0 ∧ w.extractLsb' 57 7 = 0 := by
  unfold decodeHost
  split
  · simp_all
  · split <;> simp_all

/-- The request word of an operation (R87; the layout is log entry 11's). -/
def hostWord (i : Instr) : HostWord :=
  packRequest ((hostCode i).getD 0) (hostOperands i).1 (hostOperands i).2.1 (hostOperands i).2.2

/-- A word with clear unused bits is the word of the operation whose fields it has. -/
theorem hostWord_of_areOf {w : HostWord} {i : Instr} (h : (requestFields w).areOf i) (hlow : w.extractLsb' 5 3 = 0)
    (hhigh : w.extractLsb' 57 7 = 0) : hostWord i = w := by
  obtain ⟨hcode, hoperands⟩ := h
  rw [hostWord, hcode, hoperands]
  exact packRequest_fields hlow hhigh

theorem requestFields_hostWord {i : Instr} {code : BitVec 5} (h : hostCode i = some code) :
    (requestFields (hostWord i)).areOf i := by
  simp [hostWord, RequestFields.areOf, h]

/-- A request word decodes to an operation exactly when it is the word of that operation, with a length in range. -/
theorem decodeHost_eq_ok_iff_hostWord {w : HostWord} {i : Instr} :
    decodeHost w = .ok i ↔ i.wellFormed = true ∧ (∃ code, hostCode i = some code) ∧ hostWord i = w := by
  rw [decodeHost_eq_ok_iff]
  constructor
  · rintro ⟨hfields, hlow, hhigh⟩
    obtain ⟨hf, hwf⟩ := areOf_of_decodeFields hfields
    exact ⟨hwf, ⟨_, hf.1⟩, hostWord_of_areOf hf hlow hhigh⟩
  · rintro ⟨hwf, ⟨code, hcode⟩, rfl⟩
    exact ⟨decodeFields_of_areOf (requestFields_hostWord hcode) hwf, packRequest_low _ _ _ _,
      packRequest_high _ _ _ _⟩

/-! ### The encoder (R83, R85) -/

theorem encode_of_row {i : Instr} {d : Descriptor} (h : busDescriptor i = some d) : encode i = .bus d.pack := by
  simp [encode, h]

/-- An operation of R87 is no row of R86. -/
theorem busDescriptor_of_hostCode {i : Instr} {code : BitVec 5} (h : hostCode i = some code) :
    busDescriptor i = none := by
  cases i <;> cases h <;> rfl

theorem encode_of_hostCode {i : Instr} {code : BitVec 5} (h : hostCode i = some code) :
    encode i = .host (hostWord i) := by
  simp [encode, busDescriptor_of_hostCode h, hostWord]

/-- Only the length of a request can be out of range: a bus command is well-formed. -/
theorem wellFormed_of_row {i : Instr} {d : Descriptor} (h : busDescriptor i = some d) : i.wellFormed = true := by
  cases i <;> cases h <;> rfl

theorem encode_eq_bus_iff {i : Instr} {w : BusWord} :
    encode i = .bus w ↔ ∃ d, busDescriptor i = some d ∧ d.pack = w := by
  unfold encode
  split <;> simp_all

theorem encode_eq_host_iff {i : Instr} {w : HostWord} :
    encode i = .host w ↔ (∃ code, hostCode i = some code) ∧ hostWord i = w := by
  constructor
  · intro h
    rcases Machine.busDescriptor_or_hostCode i with ⟨d, hd⟩ | ⟨code, hcode⟩
    · rw [encode_of_row hd] at h
      cases h
    · rw [encode_of_hostCode hcode] at h
      cases h
      exact ⟨⟨code, hcode⟩, rfl⟩
  · rintro ⟨⟨code, hcode⟩, rfl⟩
    exact encode_of_hostCode hcode

end Sys2Proof

namespace Sys2Proof.Proofs

/-- Settles O9, for each kind of word: what decodes is exactly what the encoder writes. -/
theorem decodeEncodeAgree : Obligations.DecodeEncodeAgree := by
  intro c i
  cases c with
  | bus w =>
    rw [decode, decodeBus_eq_ok_iff, encode_eq_bus_iff]
    exact ⟨fun ⟨d, hd, hw⟩ => ⟨wellFormed_of_row hd, d, hd, hw⟩, And.right⟩
  | host w => rw [decode, decodeHost_eq_ok_iff_hostWord, encode_eq_host_iff]

/-- Settles O6: each word is evaluated. -/
theorem printedWordsDecode : Obligations.PrintedWordsDecode :=
  ⟨rfl, rfl, rfl, rfl, rfl, rfl, rfl, rfl, rfl, rfl, rfl, rfl, rfl, rfl, rfl, rfl, rfl, rfl⟩

/-- Settles O7: such a word holds no descriptor, so there is no row to find. -/
theorem illegalBusWordsRejected : Obligations.IllegalBusWordsRejected := fun _ =>
  ⟨fun h => decodeBus_of_unpack_error (unpack_reservedWidth h),
    fun hiw haw hdw ha => decodeBus_of_unpack_error (unpack_addressWithoutWidth hiw haw hdw ha)⟩

/-- Settles O8: the code is tested before every other bit of the word. -/
theorem unassignedCodesSelectNothing : Obligations.UnassignedCodesSelectNothing := by
  intro w h
  have hfields : decodeFields (requestFields w) = .error .unassignedCode := decodeFields_unassigned h
  simp [decodeHost, hfields]

end Sys2Proof.Proofs

/-! PROOFS. The bus commands (spec/30_encoding.md R86, spec/40_transport_and_descriptor.md R110 to R116). What a
transport call leaves alone and what the reference device makes of it; what each of the port's primitives answers; then
that every event a step appends is a row of R86, as the port runs nothing else and asks for the row's data phase. -/
namespace Sys2Proof.Machine
open Sys2Proof.Claims

/-! ### What a transport call leaves alone (R116) -/

/-- A transport call touches nothing of the block but the byte it may receive, and uses up its arguments. -/
theorem transport_busFrame (k : Kind) (d : Descriptor) (n : Nat) (s : State) : BusFrame s (transport k d n s) where
  kept := transport_kept k d n s
  chunker := by constructor <;> simp
  mode := transport_mode k d n s
  ctl := transport_ctl k d n s
  rest := transport_rest k d n s
  op := transport_op k d n s
  addr := transport_addr k d n s
  len := transport_len k d n s
  value := transport_value k d n s
  dst := transport_dst k d n s
  response := transport_response k d n s
  tx := transport_tx k d n s
  count := transport_count k d n s

section
variable {s : State} {d : Descriptor}

/-- The array of the reference device after a call that reads nothing is as the effect of its event leaves it (D26). -/
theorem transport_flashAt (henv : s.env = .refFlash) (k : Kind) (b : Nat) :
    flashAt (transport k d 0 s) b = flashAt (refEffect d s.tx s) b := by
  simp [flashAt, respond, henv]

/-- An event without an effect on the array changes no byte of it. -/
theorem transport_sameFlash {k : Kind} (h : ∀ b, flashAt (refEffect d s.tx s) b = flashAt s b) :
    SameFlash s (transport k d 0 s) := fun henv b => (transport_flashAt henv k b).trans (h b)

/-! ### What the port answers (R110, R111, U1) -/

/-- A command on an unarmed port appends its one event and leaves the rest of the block alone; `P` is what it does to
the device (R110). -/
theorem busCommand_completes {i : Instr} {P : State → Prop} (hi : exec i s = busCommand d s) (hw : s.window = none)
    (hP : P (transport .command d 0 s)) :
    ∃ t, exec i s = .next t ∧ t.trace = s.trace ++ [.cmd d] ∧ BusFrame s t ∧ t.rx = s.rx ∧ t.window = s.window ∧ P t :=
  ⟨_, hi.trans (busCommand_next d hw), transport_trace _ _ _ _, transport_busFrame _ _ _ _, by simp, by simp, hP⟩

/-- The same of a write with a payload of a length its row takes (R111). -/
theorem busWrite_completes {i : Instr} {most : Nat} {P : State → Prop} (hi : exec i s = busWrite d most s)
    (hw : s.window = none) (hpos : 1 ≤ s.tx.length) (hmost : s.tx.length ≤ most) (hP : P (transport .write d 0 s)) :
    ∃ t, exec i s = .next t ∧ t.trace = s.trace ++ [.wr d s.tx] ∧ BusFrame s t ∧ t.rx = s.rx ∧ t.window = s.window ∧
      P t :=
  ⟨_, hi.trans (busWrite_next d hw hpos hmost), transport_trace _ _ _ _, transport_busFrame _ _ _ _, by simp, by simp,
    hP⟩

/-- A register write of one byte (R88, R111). -/
theorem busWrite_sends {i : Instr} {v : Byte} (hi : exec i s = busWrite d 1 s) (hw : s.window = none)
    (htx : s.tx = [v]) (hflash : ∀ b, flashAt (refEffect d s.tx s) b = flashAt s b) : Sends i s (.wr d [v]) := by
  have hlen : s.tx.length = 1 := by rw [htx]; rfl
  rw [← htx]
  exact busWrite_completes hi hw hlen.ge hlen.le (transport_sameFlash hflash)

/-- An armed port takes no discrete command (R136, U1). -/
theorem portOpen_armed (h : s.window.isSome = true) (r : Result) : portOpen s r = .refused .memoryMapped := by
  simp [portOpen, h]

/-- A payload of a length the row does not take is refused (log entry 17). -/
theorem busWrite_refused {most : Nat} (hw : s.window = none) (h : s.tx.length = 0 ∨ most < s.tx.length) :
    busWrite d most s = .refused .dataLength := by
  rw [busWrite, portOpen, if_neg (by simp [hw]), if_pos h]

/-- So is a read of no byte (log entry 17). -/
theorem busRead_refused (hw : s.window = none) : busRead d 0 s = .refused .dataLength := by
  simp [busRead, portOpen, hw]

/-- A write that answers had a payload its row takes, and made its transport call. -/
theorem busWrite_eq_next {most : Nat} {t : State} (h : busWrite d most s = .next t) :
    1 ≤ s.tx.length ∧ s.tx.length ≤ most ∧ t = transport .write d 0 s := by
  obtain ⟨-, h⟩ := portOpen_next h
  split at h
  · cases h
  · cases h
    exact ⟨by omega, by omega, rfl⟩

/-- A read that answers was of some byte, and made its transport call. -/
theorem busRead_eq_next {n : Nat} {t : State} (h : busRead d n s = .next t) : n ≠ 0 ∧ t = transport .read d n s := by
  obtain ⟨-, h⟩ := portOpen_next h
  split at h
  · cases h
  · cases h
    exact ⟨‹_›, rfl⟩

/-! ### How many bytes a read returns (R112) -/

/-- The oracle returns as many bytes as were asked for; so where the reference device does, every environment does. -/
theorem respond_length {n : Nat} (hn : n ≠ 0) (href : (refReply d n s).1.length = n) :
    (respond d n s).1.length = n := by
  unfold respond
  split
  · exact (drawBytes_spec n s.replies s.fresh).1
  · rwa [if_neg hn]

/-- The reference device returns as many bytes to a region read as were asked for, inside its array or past it. -/
theorem refReply_qread_length (a : Addr) (n : Nat) (s : State) :
    (refReply (addressed opQREAD .quad a Config.dummyRead) n s).1.length = n := by
  have hreply : refReply (addressed opQREAD .quad a Config.dummyRead) n s =
      if a.toNat + n ≤ flashBytes s.params then (Memory.readBytes s.params s.device.flash a.toNat n, s)
      else s.draw n := rfl
  rw [hreply]
  split
  · simp [Memory.readBytes]
  · exact (drawBytes_spec n s.replies s.fresh).1

end

/-! ### A program on the reference device (R58) -/

/-- A programmed byte that was erased and is in the array reads as the byte sent (R72). -/
theorem programByte_flashAt_self {s : State} {a : Nat} {v : Byte} (hwf : Memory.wf s.params s.device.flash)
    (ha : a < flashBytes s.params) (he : flashAt s a = s.params.erasedByte) : flashAt (programByte a v s) a = v := by
  have hread : Memory.read s.params s.device.flash a = s.params.erasedByte := he
  simp [programByte, flashAt, hread, Memory.read_write a v a hwf ha]

/-- Byte `i` of a payload goes to address `a + i` (R58). -/
theorem programBytes_flashAt_inside {s : State} {a i : Nat} {bs : List Byte} (hwf : Memory.wf s.params s.device.flash)
    (hi : i < bs.length) (hin : a + i < flashBytes s.params) (he : flashAt s (a + i) = s.params.erasedByte) :
    flashAt (programBytes a bs s) (a + i) = bs[i] := by
  induction bs generalizing a i s with
  | nil => simp at hi
  | cons v bs ih =>
    have hwf' : Memory.wf (programByte a v s).params (programByte a v s).device.flash := by
      rw [programByte_params]
      exact programByte_wf a v hwf
    cases i with
    | zero =>
      calc flashAt (programBytes (a + 1) bs (programByte a v s)) a
        _ = flashAt (programByte a v s) a := programBytes_flashAt_outside hwf' (.inl (by omega))
        _ = v := programByte_flashAt_self hwf hin he
    | succ i =>
      have haddr : a + (i + 1) = a + 1 + i := by omega
      rw [haddr] at hin he ⊢
      have he' : flashAt (programByte a v s) (a + 1 + i) = (programByte a v s).params.erasedByte := by
        rw [programByte_flashAt_other hwf v (by omega), he, programByte_params]
      exact ih hwf' (by simpa using hi) (by rwa [programByte_params]) he'

/-! ### Every event is a row of R86 (R90) -/

theorem widthOfBit_ne_none (q : Bool) : widthOfBit q ≠ .none := by cases q <;> decide

/-- The event of a command of R86 is one of the table. -/
theorem tableEvent_command {i : Instr} {d : Descriptor} (hd : busDescriptor i = some d)
    (hk : busKind i = some .command) : TableEvent (.cmd d) := by
  cases i <;> cases hk <;> cases hd
  case rsten w => exact .inl ⟨widthOfBit w, widthOfBit_ne_none w, .inl rfl⟩
  case rst w => exact .inl ⟨widthOfBit w, widthOfBit_ne_none w, .inr rfl⟩
  case wren => exact .inr (.inl rfl)
  case ce => exact .inr (.inr (.inl rfl))
  case enqpi => exact .inr (.inr (.inr (.inl rfl)))
  case se a => exact .inr (.inr (.inr (.inr ⟨a, .inl rfl⟩)))
  case be32 a => exact .inr (.inr (.inr (.inr ⟨a, .inr (.inl rfl)⟩)))
  case be64 a => exact .inr (.inr (.inr (.inr ⟨a, .inr (.inr rfl)⟩)))

/-- One event of the table of R86 is appended. -/
def AppendsTableEvent (s t : State) : Prop := ∃ e, t.trace = s.trace ++ [e] ∧ TableEvent e

/-- A read that answers appends an event of the table, where `n` bytes of `d` are a row and the reference device returns
`n` of them. -/
theorem busRead_appends {s t : State} {d : Descriptor} {n : Nat} (h : busRead d n s = .next t)
    (href : (refReply d n s).1.length = n)
    (hrow : n ≠ 0 → (n = 3 ∧ d = identifyRead) ∨
      (n = 1 ∧ ∃ w, w ≠ .none ∧ (d = register 0x05 w ∨ d = register 0x35 w)) ∨ (1 ≤ n ∧ ∃ a, d = regionRead a)) :
    AppendsTableEvent s t := by
  obtain ⟨hn, rfl⟩ := busRead_eq_next h
  exact ⟨_, transport_trace _ _ _ _, respond_length hn href, hrow hn⟩

/-- A register write that answers appends an event of the table. -/
theorem registerWrite_appends {s t : State} {d : Descriptor} (h : busWrite d 1 s = .next t)
    (hrow : d = register 0xC0 .quad ∨ ∃ w, w ≠ .none ∧ (d = register 0x01 w ∨ d = register 0x31 w)) :
    AppendsTableEvent s t := by
  obtain ⟨h1, h2, rfl⟩ := busWrite_eq_next h
  exact ⟨_, transport_trace _ _ _ _, .inr ⟨Nat.le_antisymm h2 h1, hrow⟩⟩

/-- A command without a data phase that answers appends its event. -/
theorem command_appends {i : Instr} {s t : State} (hk : busKind i = some .command) (h : runBus i s = .next t) :
    AppendsTableEvent s t := by
  obtain ⟨-, d, n, hd, rfl⟩ := runBus_next h
  rw [kindOf, hk]
  exact ⟨_, transport_trace _ _ _ _, tableEvent_command hd hk⟩

/-- A bus command that answers appends one event, of its own row (R86, R90). -/
theorem runBus_appends {i : Instr} {s t : State} (h : runBus i s = .next t) : AppendsTableEvent s t := by
  cases i
  case rsten | rst | wren | ce | se | be32 | be64 | enqpi => exact command_appends rfl h
  case qpp a =>
    obtain ⟨h1, h2, rfl⟩ := busWrite_eq_next h
    exact ⟨_, transport_trace _ _ _ _, .inl ⟨h1, h2, a, rfl⟩⟩
  case srp => exact registerWrite_appends h (.inl rfl)
  case wrsr1 q => exact registerWrite_appends h (.inr ⟨_, widthOfBit_ne_none q, .inl rfl⟩)
  case wrcr q => exact registerWrite_appends h (.inr ⟨_, widthOfBit_ne_none q, .inr rfl⟩)
  case rdid => exact busRead_appends h rfl fun _ => .inl ⟨rfl, rfl⟩
  case rdsr1 q => exact busRead_appends h rfl fun _ => .inr (.inl ⟨rfl, _, widthOfBit_ne_none q, .inl rfl⟩)
  case rdcr q => exact busRead_appends h rfl fun _ => .inr (.inl ⟨rfl, _, widthOfBit_ne_none q, .inr rfl⟩)
  case qread a =>
    exact busRead_appends h (refReply_qread_length a _ s) fun hn => .inr (.inr ⟨Nat.pos_of_ne_zero hn, a, rfl⟩)
  case qioread =>
    obtain ⟨-, h⟩ := portOpen_next h
    cases h
    exact ⟨_, transport_trace _ _ _ _, rfl⟩
  all_goals cases h

/-- What settles was an answer. -/
theorem settleResult_next {r : Result} {t : State} (h : settleResult r = .next t) :
    ∃ u, r = .next u ∧ t = settle u := by
  cases r <;> cases h
  exact ⟨_, rfl, rfl⟩

/-- A step of a Busy block appends at most one event, of the table (R10, R90). -/
theorem blockStep_appends {s t : State} (h : blockStepWith runBus s = .next t) :
    t.trace = s.trace ∨ AppendsTableEvent s t := by
  rcases blockStep_next h with ⟨c, k, s', i, -, -, hn, hi, -⟩ | ⟨s', hn, rfl⟩ | ⟨s', hn, rfl⟩
  · have hport : blockStepWith runBus s =
        settleResult (runBus i { s' with rest := k, tx := c.tx, count := c.count }) := by
      simp only [blockStepWith, hn, issueWith, hi]
    obtain ⟨u, hu, rfl⟩ := settleResult_next (hport ▸ h)
    obtain ⟨e, htrace, he⟩ := runBus_appends hu
    exact .inr ⟨e, by rw [(settle_outside u).1, htrace, (nextCall_call_same hn).trace], he⟩
  · exact .inl (nextCall_ended_same hn).trace
  · exact .inl (nextCall_fatal_same hn).trace

/-- So does a move of the host: a request makes the first step of its operation. -/
theorem hostMove_appends {s t : State} (h : hostMove exec s = .next t) :
    t.trace = s.trace ∨ AppendsTableEvent s t := by
  rcases hostMove_next h with ⟨-, rfl⟩ | ⟨r, ms, i, -, -, hi, hrun⟩ | ⟨address, k, ms, -, hload⟩
  · exact .inl rfl
  · obtain ⟨code, hcode⟩ := decodeHost_ok hi
    obtain ⟨o, body, hreq⟩ := exec_request hcode
    obtain ⟨-, hstep⟩ := request_next (hreq _ ▸ hrun)
    simpa [AppendsTableEvent] using blockStep_appends hstep
  · obtain ⟨-, -, -, -, rfl⟩ := mmapLoad_next hload
    exact .inl rfl

end Sys2Proof.Machine

namespace Sys2Proof.Proofs
open Sys2Proof.Machine Sys2Proof.Safety Sys2Proof.Claims

/-- Settles O10: each is a command whose event has no effect on the array. -/
theorem plainCommandsComplete : Obligations.PlainCommandsComplete := fun _ _ hw =>
  ⟨busCommand_completes rfl hw (transport_sameFlash fun _ => rfl),
    busCommand_completes rfl hw (transport_sameFlash fun _ => rfl),
    busCommand_completes rfl hw (transport_sameFlash fun _ => rfl),
    busCommand_completes rfl hw (transport_sameFlash fun _ => rfl)⟩

/-- Settles O11: the effect of each event is the erase of its region, and of CE that of the whole array. -/
theorem eraseCommandsComplete : Obligations.EraseCommandsComplete := by
  intro s a hw
  refine ⟨busCommand_completes rfl hw fun henv b => ?_, busCommand_completes rfl hw fun henv b => ?_,
    busCommand_completes rfl hw fun henv b => ?_, busCommand_completes rfl hw fun henv b => ?_⟩
  · exact (transport_flashAt henv .command b).trans (eraseRegion_flashAt _ _ _ b)
  · exact (transport_flashAt henv .command b).trans (eraseRegion_flashAt _ _ _ b)
  · exact (transport_flashAt henv .command b).trans (eraseRegion_flashAt _ _ _ b)
  · exact (transport_flashAt henv .command b).trans rfl

/-- Settles O12: the effect of the event is the program of its payload, of which every byte outside the range is left
alone and every byte inside it goes to its own address. -/
theorem pageProgramCommandCompletes : Obligations.PageProgramCommandCompletes := by
  intro s a hw hpos hmost
  refine busWrite_completes rfl hw hpos hmost fun henv hwf => ⟨fun b hb => ?_, fun i hi hin he => ?_⟩
  · exact (transport_flashAt henv .write b).trans (programBytes_flashAt_outside hwf hb)
  · exact (transport_flashAt henv .write _).trans (programBytes_flashAt_inside hwf hi hin he)

/-- Settles O14: each is a write of the one byte, whose event has no effect on the array. -/
theorem registerWriteCommandsComplete : Obligations.RegisterWriteCommandsComplete := fun _ _ _ hw htx =>
  ⟨busWrite_sends rfl hw htx fun _ => rfl, busWrite_sends rfl hw htx fun _ => rfl,
    busWrite_sends rfl hw htx fun _ => rfl⟩

/-- Settles O16: every bus command goes through the port, and each data phase is tested there. -/
theorem portRefusals : Obligations.PortRefusals := by
  refine ⟨fun s i harmed hrow => ?_, fun s a q hw => ⟨fun hlen => ?_, fun hlen => ?_, fun hcount => ?_⟩⟩
  · obtain ⟨d, hd⟩ := Option.isSome_iff_exists.mp hrow
    cases i <;> cases hd <;> exact portOpen_armed harmed _
  · exact busWrite_refused hw hlen
  · have hone : s.tx.length = 0 ∨ 1 < s.tx.length := by omega
    exact ⟨busWrite_refused hw hone, busWrite_refused hw hone, busWrite_refused hw hone⟩
  · have hread : exec (.qread a) s = busRead (addressed opQREAD .quad a Config.dummyRead) s.count s := rfl
    rw [hread, hcount, busRead_refused hw]

/-- Settles O46, by what a step can be: hardware reset clears the trace, and a step of a Busy block or a move of the
host appends at most one event of the table. -/
theorem onlyTableCommandsAreIssued : Obligations.OnlyTableCommandsAreIssued := by
  intro s t h
  rcases step_next h with ⟨hr, rfl⟩ | ⟨-, -, hstep⟩ | ⟨-, -, hmove⟩
  · exact .inl ⟨hr, rfl⟩
  · exact .inr (blockStep_appends hstep)
  · exact .inr (hostMove_appends hmove)

end Sys2Proof.Proofs

/-! PROOFS. The reads, the arm and the reference device's registers (spec/40_transport_and_descriptor.md R112, R113, R117,
spec/92_eei_decisions.md RefFlash). What a read delivers under either environment, and what a transport call leaves of the
reference device: the effect of its event, on the device as it stood before the reply. -/
namespace Sys2Proof.Machine
open Sys2Proof.Claims

section
variable {s : State} {d : Descriptor} {i : Instr} {n : Nat}

/-! ### What a read delivers (R112) -/

/-- The reference device answers a read before the event has its effect (D26). -/
theorem respond_read (henv : s.env = .refFlash) (hn : 1 ≤ n) :
    respond d n s = ((refReply d n s).1, refEffect d s.tx (refReply d n s).2) := by
  have hne : n ≠ 0 := by omega
  simp [respond, henv, hne]

/-- What the environment returns to a read is a reply of `n` bytes: those lined up under the oracle, and on the reference
device as many as it returns. -/
theorem transport_reply (k : Kind) (hn : 1 ≤ n) (href : (refReply d n s).1.length = n) :
    Reply n s (transport k d n s) (respond d n s).1 := by
  refine ⟨respond_length (by omega) href, fun henv henough => ?_⟩
  simpa [respond, henv, State.draw] using (drawBytes_spec n s.replies s.fresh).2 henough

/-- A read whose event has no effect on the array of the reference device changes no byte of it. -/
theorem transport_read_sameFlash (k : Kind) (hn : 1 ≤ n)
    (hflash : ∀ u, (refEffect d s.tx u).device.flash = u.device.flash) : SameFlash s (transport k d n s) := by
  intro henv b
  simp [flashAt, respond_read henv hn, hflash, refReply_device]

/-- A read of some byte on an unarmed port appends its event and delivers its bytes (R112). -/
theorem busRead_receives (hi : exec i s = busRead d n s) (hw : s.window = none) (hn : 1 ≤ n)
    (href : (refReply d n s).1.length = n)
    (hflash : ∀ u, (refEffect d s.tx u).device.flash = u.device.flash) : Receives i s d n :=
  ⟨_, _, hi.trans (busRead_next d hw hn), transport_reply .read hn href, transport_trace _ _ _ _, by simp,
    transport_busFrame _ _ _ _, by simp, transport_read_sameFlash .read hn hflash⟩

/-! ### What a call leaves of the reference device (RefFlash table) -/

/-- A call that reads nothing leaves the device as the effect of its event does. -/
theorem transport_leavesDevice {k : Kind} {e : Device} (hi : exec i s = .next (transport k d 0 s))
    (henv : s.env = .refFlash) (he : (refEffect d s.tx s).device = e) : LeavesDevice i s e :=
  ⟨_, hi, by simp [respond, henv, he]⟩

/-- An erase or a program makes the device busy and leaves the rest of it but the array. -/
theorem transport_occupies {k : Kind} (hi : exec i s = .next (transport k d 0 s)) (henv : s.env = .refFlash)
    (he : (refEffect d s.tx s).device = { s.device with flash := (refEffect d s.tx s).device.flash, busy := n }) :
    Occupies i s n := by
  obtain ⟨t, ht, hdev⟩ := transport_leavesDevice hi henv rfl
  exact ⟨t, ht, by rw [hdev, ← he]⟩

/-- A read returns the device's reply and leaves the device as the effect of its event does. -/
theorem busRead_returns {bs : List Byte} {e : Device} (hi : exec i s = busRead d n s) (hw : s.window = none)
    (henv : s.env = .refFlash) (hn : 1 ≤ n) (hbs : (refReply d n s).1 = bs)
    (he : (refEffect d s.tx (refReply d n s).2).device = e) : Returns i s bs e :=
  ⟨_, hi.trans (busRead_next d hw hn), by simp [respond_read henv hn, hbs], by simp [respond_read henv hn, he]⟩

/-- A program changes nothing of the device but the array. -/
theorem programBytes_device (a : Nat) (bs : List Byte) (s : State) :
    (programBytes a bs s).device = { s.device with flash := (programBytes a bs s).device.flash } := by
  induction bs generalizing a s with
  | nil => rfl
  | cons b bs ih =>
    have hbyte : (programByte a b s).device = { s.device with flash := (programByte a b s).device.flash } := by
      unfold programByte
      split <;> rfl
    rw [programBytes, ih, hbyte]

/-- So the program command keeps it busy for `B_prog` polls and changes nothing else of it but the array. -/
theorem refEffect_qpp_device (a : Addr) (tx : List Byte) (s : State) :
    (refEffect (addressed opQPP .quad a 0) tx s).device =
      { s.device with flash := (programBytes a.toNat tx s).device.flash, busy := s.params.bProg } :=
  calc (refEffect (addressed opQPP .quad a 0) tx s).device
    _ = { (programBytes a.toNat tx s).device with busy := (programBytes a.toNat tx s).params.bProg } := rfl
    _ = _ := by rw [programBytes_params, programBytes_device]

/-- A region read inside the array returns its bytes, lowest address first (R58). -/
theorem refReply_qread_inside {a : Addr} (h : a.toNat + n ≤ flashBytes s.params) :
    (refReply (addressed opQREAD .quad a Config.dummyRead) n s).1 =
      (List.range n).map (fun i => flashAt s (a.toNat + i)) :=
  congrArg Prod.fst (if_pos h)

end

end Sys2Proof.Machine

namespace Sys2Proof.Proofs
open Sys2Proof.Machine Sys2Proof.Claims

/-- Settles O13: each is a read of the number of bytes its row gives, which the reference device returns too. -/
theorem readCommandsComplete : Obligations.ReadCommandsComplete := fun s _ a hw =>
  ⟨busRead_receives rfl hw (by decide) rfl fun _ => rfl, busRead_receives rfl hw (by decide) rfl fun _ => rfl,
    busRead_receives rfl hw (by decide) rfl fun _ => rfl,
    fun hcount => busRead_receives rfl hw hcount (refReply_qread_length a s.count s) fun _ => rfl⟩

/-- Settles O15: the arm is a transport call of the template, without an effect on the array. -/
theorem armCommandCompletes : Obligations.ArmCommandCompletes := fun _ hw =>
  ⟨_, busArm_next mmapTemplate hw, transport_trace _ _ _ _, transport_window _ _ _ _, transport_busFrame _ _ _ _,
    transport_rx _ _ _ _, transport_sameFlash fun _ => rfl⟩

/-- Settles O53, row by row of the RefFlash table: the effect of each event on the device, and the reply to each read. -/
theorem referenceDeviceRegisters : Obligations.ReferenceDeviceRegisters := by
  intro s w q a henv hw
  have hqread : 1 ≤ s.count →
      Returns (.qread a) s (refReply (addressed opQREAD .quad a Config.dummyRead) s.count s).1 s.device := fun hcount =>
    busRead_returns rfl hw henv hcount rfl (refReply_device _ _ _)
  refine ⟨?rsten, ?wren, ?enqpi, ?qioread, ?rst, ?se, ?be32, ?be64, ?ce, ?qpp, ?rdsr1, ?rdcr, ?rdid, ?qread,
    ?qreadInside, ?registerWrites⟩
  case rsten | wren | enqpi | rst => exact transport_leavesDevice (busCommand_next _ hw) henv rfl
  case qioread => exact transport_leavesDevice (busArm_next _ hw) henv rfl
  case se | be32 | be64 | ce => exact transport_occupies (busCommand_next _ hw) henv rfl
  case qpp =>
    intro hpos hmost
    exact transport_occupies (busWrite_next _ hw hpos hmost) henv (refEffect_qpp_device a s.tx s)
  case rdsr1 | rdcr | rdid => exact busRead_returns rfl hw henv (by decide) rfl rfl
  case qread =>
    intro hcount
    obtain ⟨t, ht, -, hdev⟩ := hqread hcount
    exact ⟨t, ht, hdev⟩
  case qreadInside =>
    intro hcount hin
    rw [← refReply_qread_inside hin]
    exact hqread hcount
  case registerWrites =>
    intro v htx
    have hlen : s.tx.length = 1 := by rw [htx]; rfl
    refine ⟨?wrsr1, ?wrcr, ?srp⟩
    all_goals
      refine transport_leavesDevice (busWrite_next _ hw hlen.ge hlen.le) henv ?_
      rw [htx]
      rfl

end Sys2Proof.Proofs

/-! PROOFS. The mode-entry operations (spec/41_mode_fsm.md). An operation is followed as a `Path` through its pseudocode:
local statements are skipped, each transport call makes its event, one call a step (R10). What a path makes, a run of the
machine makes. Then what each transaction of the register layer leaves alone, the paths of ENABLE_QUAD, ENTER_QPI and
ENTER_MEMORY_MAP, and that the mode is terminal once it is MemoryMapped and untouched by RESET. -/
namespace Sys2Proof.Machine
open Sys2Proof.Safety Sys2Proof.Claims

/-! ### Paths through the pseudocode (R9, R10) -/

/-- From the position `k` at `u` local computation leads to a transport call that makes the event `e` and leaves the
position `k'` at `v`, not yet settled. -/
def Calls (k : List Stmt) (u : State) (e : Event) (k' : List Stmt) (v : State) : Prop :=
  ∃ c u', nextCall k u = .call c k' u' ∧ issueWith runBus c { u' with rest := k' } = .next v ∧
    v.trace = u.trace ++ [e]

/-- From the position `k` at `u` the pseudocode makes the events `es` and comes to the position `k'` at `v`. -/
inductive Path : List Stmt → State → List Event → List Stmt → State → Prop
  | refl (k : List Stmt) (u : State) : Path k u [] k u
  | skip {st : Stmt} {k k' : List Stmt} {u v w : State} {es : List Event} (h : act st u = .skip v)
      (hp : Path k v es k' w) : Path (st :: k) u es k' w
  | call {k k₁ k' : List Stmt} {u v w : State} {e : Event} {es : List Event} (h : Calls k u e k₁ v)
      (hp : Path k₁ v es k' w) : Path k u (e :: es) k' w

section
variable {k k' k'' body : List Stmt} {u v w s : State} {e : Event} {es es' : List Event}

theorem Calls.path (h : Calls k u e k' v) : Path k u [e] k' v := .call h (.refl k' v)

theorem Path.trans (h : Path k u es k' v) (h' : Path k' v es' k'' w) : Path k u (es ++ es') k'' w := by
  induction h with
  | refl => exact h'
  | skip ha _ ih => exact .skip ha (ih h')
  | call hc _ ih => exact .call hc (ih h')

/-- What a transport call leaves of the control state, and that its arguments are used up (R116). -/
theorem Calls.leaves (h : Calls k u e k' v) :
    v.rest = k' ∧ v.ctl = u.ctl ∧ v.resetPending = u.resetPending ∧ v.tx = [] ∧ v.count = 0 := by
  obtain ⟨c, u', hn, hi, -⟩ := h
  obtain ⟨-, i, d, n, -, -, rfl⟩ := issueWith_next hi
  have hs := nextCall_call_same hn
  simp [hs.ctl, hs.resetPending]

/-- A statement that is skipped puts the call that follows it no further away. -/
theorem Calls.after_skip {st : Stmt} (ha : act st u = .skip v) (h : Calls k v e k' w) : Calls (st :: k) u e k' w := by
  obtain ⟨c, u', hn, hi, htrace⟩ := h
  exact ⟨c, u', by simpa only [nextCall, ha] using hn, hi, by rw [htrace, (act_skip_same ha).trace]⟩

/-- A path without events is local computation. -/
theorem Path.nextCall_eq (h : Path k u [] k' v) : nextCall k u = nextCall k' v := by
  generalize hes : ([] : List Event) = es at h
  induction h with
  | refl => rfl
  | skip ha _ ih => simpa only [nextCall, ha] using ih hes
  | call => cases hes

/-- A path with an event begins with the call that makes it. -/
theorem Path.head (h : Path k u (e :: es) k' w) : ∃ k₁ v, Calls k u e k₁ v ∧ Path k₁ v es k' w := by
  generalize hes : e :: es = es₀ at h
  induction h with
  | refl => cases hes
  | skip ha _ ih =>
    obtain ⟨k₁, v, hc, hp⟩ := ih hes
    exact ⟨k₁, v, hc.after_skip ha, hp⟩
  | call hc hp =>
    cases hes
    exact ⟨_, _, hc, hp⟩

theorem Path.trace_eq (h : Path k u es k' v) : v.trace = u.trace ++ es := by
  induction h with
  | refl => simp
  | skip ha _ ih => rw [ih, (act_skip_same ha).trace]
  | call hc _ ih =>
    obtain ⟨-, -, -, -, htrace⟩ := hc
    rw [ih, htrace, List.append_assoc, List.singleton_append]

/-- No argument of a call is left on a path that begins with none (R116). -/
theorem Path.port (h : Path k u es k' v) (hu : u.tx = [] ∧ u.count = 0) : v.tx = [] ∧ v.count = 0 := by
  induction h with
  | refl => exact hu
  | skip ha _ ih => exact ih (by rwa [(act_skip_same ha).tx, (act_skip_same ha).count])
  | call hc _ ih =>
    obtain ⟨-, -, -, hport⟩ := hc.leaves
    exact ih hport

/-- Nor on a path that has made a call. -/
theorem Path.port_of_ne_nil (h : Path k u es k' v) (hes : es ≠ []) : v.tx = [] ∧ v.count = 0 := by
  obtain ⟨e, es, rfl⟩ := List.exists_cons_of_ne_nil hes
  obtain ⟨k₁, w, hc, hp⟩ := h.head
  obtain ⟨-, -, -, hport⟩ := hc.leaves
  exact hp.port hport

/-! ### What a path makes, a run makes -/

/-- A Busy block makes the first call of its path in one step, and settles (R10). -/
theorem Calls.blockStep (h : Calls u.rest u e k' v) : blockStepWith runBus u = .next (settle v) := by
  obtain ⟨c, u', hn, hi, -⟩ := h
  simp only [blockStepWith, hn, hi, settleResult]

/-- Settling finishes an operation whose path has no call left (R10). -/
theorem Path.settle_eq (h : Path u.rest u [] [] v) : settle u = finish v := settle_of_ended h.nextCall_eq

theorem RunsTo.succ {n : Nat} (h : step u = .next v) (hrun : RunsTo n v w) : RunsTo (n + 1) u w := by
  have hstep : Sys2Proof.core.step u = .next v := h
  simpa only [RunsTo, Host.Core.run, hstep] using hrun

/-- A Busy block makes the calls of its path one a step, and finishes. -/
theorem Path.runsTo (hb : u.ctl = .busy) (hr : u.resetPending = false) (h : Path u.rest u es [] v) :
    RunsTo es.length (settle u) (finish v) := by
  induction es generalizing u with
  | nil => exact congrArg _ h.settle_eq
  | cons e es ih =>
    obtain ⟨k₁, w, hc, hp⟩ := h.head
    obtain ⟨rfl, hctl, hreset, -⟩ := hc.leaves
    have hset : settle u = u := by
      obtain ⟨c, u', hn, -⟩ := hc
      exact settle_of_call hn
    rw [hset]
    exact RunsTo.succ ((step_of_busy hr hb).trans hc.blockStep) (ih (hctl.trans hb) (hreset.trans hr) hp)

/-! ### Requests without operands, from Ready (R234) -/

theorem window_of_ready (h : Ready s) : s.window = none := h.2.2

/-- A block that is Ready accepts a request without operands, and makes a Busy step (R10, R234). -/
theorem exec_of_ready {i : Instr} {code : BitVec 5} (hi : exec i s = request code .nothing body s) (hs : Ready s) :
    exec i s = blockStepWith runBus (accept code .nothing body s) := by
  obtain ⟨hctl, hmode, -⟩ := hs
  simp [hi, request, acceptRefusal, hctl, hmode, operandRefusal]

/-- An operation of one call has ended with it (R10). -/
theorem Path.exec_of_one {i : Instr} {code : BitVec 5} (hi : exec i s = request code .nothing body s) (hs : Ready s)
    (h : Path body (accept code .nothing body s) [e] [] v) : exec i s = .next (finish v) := by
  obtain ⟨k₁, w, hc, hp⟩ := h.head
  obtain ⟨rfl, -⟩ := hc.leaves
  have hstep : exec i s = .next (settle w) := (exec_of_ready hi hs).trans hc.blockStep
  rw [hstep, hp.settle_eq]

/-- An operation makes the calls of its path, the first with its acceptance (R10; log entry 1). -/
theorem Path.runsThrough {i : Instr} {code : BitVec 5} (hi : exec i s = request code .nothing body s) (hs : Ready s)
    (hr : s.resetPending = false) (hes : es ≠ []) (h : Path body (accept code .nothing body s) es [] v) :
    RunsThrough i s es (finish v) := by
  have htrace : (finish v).trace = s.trace ++ es := h.trace_eq
  obtain ⟨e, es, rfl⟩ := List.exists_cons_of_ne_nil hes
  obtain ⟨k₁, w, hc, hp⟩ := h.head
  obtain ⟨rfl, hctl, hreset, -⟩ := hc.leaves
  exact ⟨settle w, (exec_of_ready hi hs).trans hc.blockStep, hp.runsTo hctl (hreset.trans hr), htrace⟩

/-! ### What the register layer and the mode changes leave alone -/

/-- What no register transaction, command without a data phase or change of the mode touches: what no instruction touches,
the working registers, `Dst`, the response and the bytes of the reference device's array. -/
structure Steady (s t : State) : Prop where
  kept : Kept s t
  chunker : ChunkerKept s t
  dst : t.dst = s.dst
  response : t.response = s.response
  flash : SameFlash s t

/-- Moving on, receiving and using up bytes, setting up a call and changing the mode are steady (R21, R26, R27). -/
theorem Steady.of_local {m : Mode} {bs tx : List Byte} {n : Nat} :
    Steady s { s with mode := m, rest := k, rx := bs, tx := tx, count := n } :=
  ⟨⟨rfl, rfl, rfl, rfl, rfl, rfl⟩, ⟨rfl, rfl, rfl, rfl⟩, rfl, rfl, fun _ _ => rfl⟩

theorem Steady.trans (h : Steady s u) (h' : Steady u v) : Steady s v where
  kept := h.kept.trans h'.kept
  chunker := ⟨h'.chunker.cursor.trans h.chunker.cursor, h'.chunker.remaining.trans h.chunker.remaining,
    h'.chunker.srcOff.trans h.chunker.srcOff, h'.chunker.chunkLen.trans h.chunker.chunkLen⟩
  dst := h'.dst.trans h.dst
  response := h'.response.trans h.response
  flash henv a := (h'.flash (h.kept.env.trans henv) a).trans (h.flash henv a)

theorem Steady.transport {kd : Kind} {d : Descriptor} {n : Nat} (h : SameFlash s (transport kd d n s)) :
    Steady s (Machine.transport kd d n s) :=
  ⟨transport_kept kd d n s, (transport_busFrame kd d n s).chunker, transport_dst kd d n s, transport_response kd d n s, h⟩

/-- An operation that was steady ends with its response and leaves the working registers, `Dst` and the array. -/
theorem Steady.ended {code : BitVec 5} (h : Steady (accept code .nothing body s) v) (hport : v.tx = [] ∧ v.count = 0) :
    Ended (.done []) s (finish v) ∧ ChunkerKept s (finish v) ∧ (finish v).dst = s.dst ∧ SameFlash s (finish v) := by
  obtain ⟨hkept, ⟨hcursor, hremaining, hoff, hlen⟩, hdst, hresponse, hflash⟩ := h
  refine ⟨⟨?_, rfl, rfl, rfl, hport.1, hport.2, ?_⟩, ⟨hcursor, hremaining, hoff, hlen⟩, hdst, hflash⟩
  · exact (accept_kept code .nothing body s).trans (hkept.trans (finish_kept v))
  · simp [hresponse, doneResponse]

/-! ### Transport calls on a path -/

/-- A call that is no read leaves the bytes that are lined up (R117). -/
theorem respond_replies_of_no_read (d : Descriptor) (s : State) : (respond d 0 s).2.replies = s.replies := by
  unfold respond
  split <;> simp [drawBytes]

/-- The port makes the call of a row that local computation leads to. -/
theorem calls_of_row {u' : State} {i : Instr} {d : Descriptor} {tx : List Byte} {n m : Nat} {kd : Kind}
    (hd : busDescriptor i = some d) (hn : nextCall k u = .call (busCall i tx n) k' u')
    (hrun : runBus i { u' with rest := k', tx := tx, count := n } =
      .next (transport kd d m { u' with rest := k', tx := tx, count := n })) :
    Calls k u (eventOf kd d m tx (respond d m { u' with rest := k', tx := tx, count := n }).1) k'
      (transport kd d m { u' with rest := k', tx := tx, count := n }) :=
  ⟨_, u', hn, (issueWith_busCall runBus hd tx n _).trans hrun, by simp [(nextCall_call_same hn).trace]⟩

/-- From `s` the machine has come steadily to `t`, with the port unarmed, to the mode `m` and with the bytes `rs` lined
up. -/
structure Standing (s : State) (m : Mode) (rs : List Byte) (t : State) : Prop where
  steady : Steady s t
  unarmed : t.window = none
  mode : t.mode = m
  replies : t.replies = rs

theorem Steady.standing {m : Mode} {rs : List Byte} (h : Steady s u) (h' : Standing u m rs v) : Standing s m rs v :=
  ⟨h.trans h'.steady, h'.unarmed, h'.mode, h'.replies⟩

/-- An operation without operands whose path is steady and arms nothing is run through, and has ended. -/
theorem Path.completes {i : Instr} {code : BitVec 5} {m : Mode} {rs : List Byte}
    (h : Path body (accept code .nothing body s) es [] v) (hv : Standing (accept code .nothing body s) m rs v)
    (hes : es ≠ []) (hi : exec i s = request code .nothing body s) (hs : Ready s) (hr : s.resetPending = false) :
    ∃ t, RunsThrough i s es t ∧ Ended (.done []) s t ∧ ChunkerKept s t ∧ t.mode = m ∧ t.window = none ∧
      t.dst = s.dst ∧ t.replies = rs := by
  obtain ⟨hended, hchunk, hdst, -⟩ := hv.steady.ended (h.port_of_ne_nil hes)
  exact ⟨finish v, h.runsThrough hi hs hr hes, hended, hchunk, hv.mode, hv.unarmed, hdst, hv.replies⟩

section
variable {i : Instr} {d : Descriptor}

/-- A discrete call that reads nothing and has no effect on the array is steady. -/
theorem transport_standing (kd : Kind) {bs tx : List Byte} {n : Nat} (hkd : kd ≠ .arm) (hw : u.window = none)
    (hflash : ∀ tx t, (refEffect d tx t).device.flash = t.device.flash) :
    Standing u u.mode u.replies (transport kd d 0 { u with rest := k, rx := bs, tx := tx, count := n }) where
  steady := Steady.of_local.trans (.transport (transport_sameFlash fun b => by simp [flashAt, hflash]))
  unarmed := by simp [hkd, hw]
  mode := by simp
  replies := respond_replies_of_no_read d _

variable (hd : busDescriptor i = some d)
include hd

/-- A command without a data phase (R110). -/
theorem command_calls (hi : ∀ t, runBus i t = busCommand d t)
    (hflash : ∀ tx t, (refEffect d tx t).device.flash = t.device.flash) (hw : u.window = none) (k : List Stmt) :
    ∃ v, Calls (.issue (busCall i [] 0) :: k) u (.cmd d) k v ∧ Standing u u.mode u.replies v := by
  have hn : nextCall (.issue (busCall i [] 0) :: k) u = .call (busCall i [] 0) k u := rfl
  exact ⟨_, calls_of_row hd hn ((hi _).trans (busCommand_next d hw)),
    transport_standing .command (by decide) hw hflash⟩

/-- A register write of one byte; what was read before it is used up (R26, R111, R151). -/
theorem busWrite_calls {b : Byte} (hi : ∀ t, runBus i t = busWrite d 1 t)
    (hflash : ∀ tx t, (refEffect d tx t).device.flash = t.device.flash) (hw : u.window = none)
    (hn : nextCall k u = .call (busCall i [b] 0) k' { u with rx := [] }) :
    ∃ v, Calls k u (.wr d [b]) k' v ∧ Standing u u.mode u.replies v :=
  ⟨_, calls_of_row hd hn ((hi _).trans (busWrite_next d hw (Nat.le_refl 1) (Nat.le_refl 1))),
    transport_standing .write (by decide) hw hflash⟩

/-- A register read delivers the one byte the environment returned (R112, R150). -/
theorem busRead_calls (hi : ∀ t, runBus i t = busRead d 1 t) (href : ∀ t, (refReply d 1 t).1.length = 1)
    (hflash : ∀ tx t, (refEffect d tx t).device.flash = t.device.flash) (hw : u.window = none)
    (hn : nextCall k u = .call (busCall i [] 0) k' u) :
    ∃ b v, Calls k u (.rd d 1 [b]) k' v ∧ v.rx = [b] ∧ Reply 1 u v [b] ∧ Standing u u.mode v.replies v := by
  have hreply := transport_reply .read (Nat.le_refl 1) (href { u with rest := k', tx := [], count := 0 })
  have hcall := calls_of_row hd hn ((hi _).trans (busRead_next d hw (Nat.le_refl 1)))
  obtain ⟨b, hb⟩ := List.length_eq_one_iff.mp hreply.1
  rw [hb] at hreply
  rw [eventOf, hb] at hcall
  refine ⟨b, _, hcall, by simp [hb], hreply, ?_, ?_, ?_, rfl⟩
  · exact Steady.of_local.trans (.transport (transport_read_sameFlash .read (Nat.le_refl 1) (hflash _)))
  · simp [hw]
  · simp

end

/-- Under the oracle the byte of a reply is the first of those lined up (R117). -/
theorem reply_one_of_oracle {b c : Byte} {rs : List Byte} (h : Reply 1 u v [b]) (henv : u.env = .oracle)
    (hrs : u.replies = c :: rs) : b = c ∧ v.replies = rs := by
  obtain ⟨hb, hv⟩ := h.2 henv (by simp [hrs])
  simpa [hrs] using And.intro hb hv

/-- READ_REGISTER at the width of `qia` (R88, R150, R157). -/
theorem registerRead_calls {op : Byte} (hop : op = opRDSR1 ∨ op = opRDCR) (hw : u.window = none)
    (hn : nextCall k u = .call (registerCall op [] u) k' u) :
    ∃ b v, Calls k u (registerRead op (width u.qia) b) k' v ∧ v.rx = [b] ∧ Reply 1 u v [b] ∧
      Standing u u.mode v.replies v := by
  rcases hop with rfl | rfl
  · exact busRead_calls (i := .rdsr1 u.qia) rfl (fun _ => rfl) (fun _ => rfl) (fun _ _ => rfl) hw hn
  · exact busRead_calls (i := .rdcr u.qia) rfl (fun _ => rfl) (fun _ => rfl) (fun _ _ => rfl) hw hn

/-- The same under the oracle, with a byte lined up (R117). -/
theorem registerRead_calls_of_oracle {op b : Byte} {rs : List Byte} (hop : op = opRDSR1 ∨ op = opRDCR)
    (henv : u.env = .oracle) (hrs : u.replies = b :: rs) (hw : u.window = none)
    (hn : nextCall k u = .call (registerCall op [] u) k' u) :
    ∃ v, Calls k u (registerRead op (width u.qia) b) k' v ∧ v.rx = [b] ∧ Standing u u.mode rs v := by
  obtain ⟨c, v, hc, hrx, hreply, hv⟩ := registerRead_calls hop hw hn
  obtain ⟨rfl, hvrs⟩ := reply_one_of_oracle hreply henv hrs
  exact ⟨v, hc, hrx, hvrs ▸ hv⟩

/-- WRITE_REGISTER at the width of `qia`; SRP only where it is set, as its row is quad (R88, R139, R151, R157). -/
theorem registerWrite_calls {op b : Byte} (hop : op = opWRSR1 ∨ op = opWRCR ∨ op = opSRP ∧ u.qia = true)
    (hw : u.window = none) (hn : nextCall k u = .call (registerCall op [b] u) k' { u with rx := [] }) :
    ∃ v, Calls k u (registerWrite op (width u.qia) b) k' v ∧ Standing u u.mode u.replies v := by
  rcases hop with rfl | rfl | ⟨rfl, hq⟩
  · exact busWrite_calls (i := .wrsr1 u.qia) rfl (fun _ => rfl) (fun _ _ => rfl) hw hn
  · exact busWrite_calls (i := .wrcr u.qia) rfl (fun _ => rfl) (fun _ _ => rfl) hw hn
  · rw [registerCall_srp _ hq] at hn
    rw [hq]
    exact busWrite_calls (i := .srp) rfl (fun _ => rfl) (fun _ _ => rfl) hw hn

/-! ### ENABLE_QUAD (R131) -/

theorem qia_of_mode (h : v.mode = u.mode) : v.qia = u.qia := by simp only [State.qia, h]

/-- `if mode = SingleWire then mode <- QuadRegisterEnabled` (R131). -/
theorem raiseMode_path (hw : u.window = none) (k : List Stmt) :
    ∃ v, Path (.raiseMode :: k) u [] k v ∧ Standing u (raised u.mode) u.replies v := by
  by_cases hm : u.mode = .singleWire
  · exact ⟨_, .skip (act_raiseMode_singleWire hm) (.refl k _), .of_local, hw, (if_pos hm).symm, rfl⟩
  · exact ⟨_, .skip (act_raiseMode_other hm) (.refl k u), .of_local, hw, (if_neg hm).symm, rfl⟩

/-- With Quad-Enable set in the byte read from CR nothing more is sent (R131, R138). -/
theorem testQe_path_of_set {cr : Byte} (hrx : u.rx = [cr]) (hq : cr &&& 0x02 ≠ 0) (hw : u.window = none)
    (k : List Stmt) :
    ∃ v, Path (.testQe :: .raiseMode :: k) u [] k v ∧ Standing u (raised u.mode) u.replies v := by
  have hset : qeSet (firstByte u.rx) = true := by
    rw [hrx]
    exact decide_eq_true hq
  obtain ⟨v, hp, hv⟩ := raiseMode_path (u := { u with rx := [] }) hw k
  exact ⟨v, .skip (act_testQe_set hset) hp, Steady.of_local.standing hv⟩

/-- With Quad-Enable clear CR is written with the bit set (R131). -/
theorem nextCall_testQe_of_clear {cr : Byte} (hrx : u.rx = [cr]) (hq : cr &&& 0x02 = 0) (k : List Stmt) :
    nextCall (.testQe :: .raiseMode :: k) u = .call (registerCall opWRCR [cr ||| 0x02] u)
      (.readRegister opRDSR1 :: .writeRegister opWRSR1 .readWithQe :: .raiseMode :: k) { u with rx := [] } := by
  have hclear : qeSet (firstByte u.rx) = false := by
    rw [hrx]
    exact decide_eq_false (not_not.mpr hq)
  simp only [nextCall, act_testQe_clear hclear, hrx]
  rfl

/-- So is SR1, after a fresh read of it (R131). -/
theorem testQe_path_of_clear {cr sr : Byte} {rs : List Byte} (hrx : u.rx = [cr]) (hq : cr &&& 0x02 = 0)
    (hw : u.window = none) (henv : u.env = .oracle) (hrs : u.replies = sr :: rs) (k : List Stmt) :
    ∃ v, Path (.testQe :: .raiseMode :: k) u
        [registerWrite 0x31 (width u.qia) (cr ||| 0x02), registerRead 0x05 (width u.qia) sr,
          registerWrite 0x01 (width u.qia) (sr ||| 0x02)] k v ∧
      Standing u (raised u.mode) rs v := by
  obtain ⟨v₁, hwrcr, h₁⟩ := registerWrite_calls (.inr (.inl rfl)) hw (nextCall_testQe_of_clear hrx hq k)
  obtain ⟨v₂, hrdsr1, hrx₂, h₂⟩ := registerRead_calls_of_oracle
    (k := .readRegister opRDSR1 :: .writeRegister opWRSR1 .readWithQe :: .raiseMode :: k) (.inl rfl)
    (h₁.steady.kept.env.trans henv) (h₁.replies.trans hrs) h₁.unarmed rfl
  obtain ⟨v₃, hwrsr1, h₃⟩ := registerWrite_calls (k := .writeRegister opWRSR1 .readWithQe :: .raiseMode :: k)
    (b := sr ||| 0x02) (.inl rfl) h₂.unarmed (by simp only [nextCall, act, registerArg, hrx₂]; rfl)
  obtain ⟨v₄, hraise, h₄⟩ := raiseMode_path h₃.unarmed k
  rw [qia_of_mode h₁.mode] at hrdsr1
  rw [qia_of_mode (h₂.mode.trans h₁.mode)] at hwrsr1
  refine ⟨v₄, .call hwrcr (.call hrdsr1 (.call hwrsr1 hraise)), ?_⟩
  rw [← h₁.mode, ← h₂.mode, ← h₃.mode, ← h₂.replies, ← h₃.replies]
  exact h₁.steady.standing (h₂.steady.standing (h₃.steady.standing h₄))

/-- ENABLE_QUAD under the oracle, from its read of CR, whichever statement makes that (R131, R132). -/
theorem enableQuad_path {cr sr : Byte} {rs : List Byte} (hw : u.window = none) (henv : u.env = .oracle)
    (hrs : u.replies = quadReplies cr sr ++ rs)
    (hn : nextCall k u = .call (registerCall opRDCR [] u) (.testQe :: .raiseMode :: k') u) :
    ∃ v, Path k u (quadEvents (width u.qia) cr sr) k' v ∧ Standing u (raised u.mode) rs v := by
  have hrs' : u.replies = cr :: ((quadReplies cr sr).tail ++ rs) := by
    rw [hrs, quadReplies]
    split <;> rfl
  obtain ⟨v₁, hread, hrx, h₁⟩ := registerRead_calls_of_oracle (.inr rfl) henv hrs' hw hn
  rw [← h₁.mode]
  by_cases hq : cr &&& 0x02 = 0
  · simp only [quadReplies, quadEvents, hq, ↓reduceIte] at h₁ ⊢
    obtain ⟨v₂, hrest, h₂⟩ := testQe_path_of_clear hrx hq h₁.unarmed (h₁.steady.kept.env.trans henv) h₁.replies k'
    rw [qia_of_mode h₁.mode] at hrest
    exact ⟨v₂, .call hread hrest, h₁.steady.standing h₂⟩
  · simp only [quadReplies, quadEvents, hq, ↓reduceIte] at h₁ ⊢
    obtain ⟨v₂, hrest, h₂⟩ := testQe_path_of_set hrx hq h₁.unarmed k'
    rw [h₁.replies] at h₂
    exact ⟨v₂, .call hread hrest, h₁.steady.standing h₂⟩

/-! ### ENTER_QPI and ENTER_MEMORY_MAP (R132, R133) -/

/-- ENTER_QPI after ENABLE_QUAD: two single-wire commands, and the parameter write in the mode they enter (R132, R139). -/
theorem qpiTail_path (hw : u.window = none) (k : List Stmt) :
    ∃ v, Path (qpiTail k) u (qpiEvents u.params.readParams) k v ∧ Standing u .qpi u.replies v := by
  obtain ⟨v₁, henqpi, h₁⟩ := command_calls (i := .enqpi) rfl (fun _ => rfl) (fun _ _ => rfl) hw
    (.issue (busCall .wren [] 0) :: .setQpi :: .writeRegister opSRP .readParams :: k)
  obtain ⟨v₂, hwren, h₂⟩ := command_calls (i := .wren) rfl (fun _ => rfl) (fun _ _ => rfl) h₁.unarmed
    (.setQpi :: .writeRegister opSRP .readParams :: k)
  obtain ⟨v₃, hsrp, h₃⟩ := registerWrite_calls (u := { v₂ with mode := .qpi }) (b := v₂.params.readParams)
    (k := .writeRegister opSRP .readParams :: k) (.inr (.inr ⟨rfl, rfl⟩)) h₂.unarmed rfl
  have hqpi : Steady u { v₂ with mode := .qpi } := h₁.steady.trans (h₂.steady.trans .of_local)
  rw [← hqpi.kept.params, ← h₁.replies, ← h₂.replies]
  exact ⟨v₃, .call henqpi (.call hwren (.skip rfl (.call hsrp (.refl k v₃)))), hqpi.standing h₃⟩

/-- ENTER_QPI where `qia` is clear: ENABLE_QUAD single-wire, and the rest (R132). -/
theorem enterQpi_path {cr sr : Byte} {rs : List Byte} (hq : u.qia = false) (hw : u.window = none)
    (henv : u.env = .oracle) (hrs : u.replies = quadReplies cr sr ++ rs) (k : List Stmt) :
    ∃ v, Path (.enterQpi :: k) u (quadEvents .single cr sr ++ qpiEvents u.params.readParams) k v ∧
      Standing u .qpi rs v := by
  have hn : nextCall (.enterQpi :: k) u =
      .call (registerCall opRDCR [] u) (.testQe :: .raiseMode :: qpiTail k) u := by
    simp only [nextCall, act_enterQpi_clear hq]
    rfl
  obtain ⟨v₁, hquad, h₁⟩ := enableQuad_path hw henv hrs hn
  obtain ⟨v₂, hqpi, h₂⟩ := qpiTail_path h₁.unarmed k
  rw [hq] at hquad
  rw [h₁.steady.kept.params] at hqpi
  exact ⟨v₂, hquad.trans hqpi, h₁.replies ▸ h₁.steady.standing h₂⟩

/-- The end of ENTER_MEMORY_MAP: the arm with the template, and the terminal mode (R133). -/
theorem mapTail_path (hw : u.window = none) :
    ∃ v, Path mapTail u [.arm template] [] v ∧ Steady u v ∧ v.mode = .memoryMapped ∧ v.window = some template ∧
      v.replies = u.replies := by
  have hn : nextCall mapTail u = .call (busCall .qioread [] 0) [.setMapped] u := rfl
  have harm := calls_of_row rfl hn (busArm_next mmapTemplate hw)
  refine ⟨_, .call harm (.skip rfl (.refl [] _)), ?_, rfl, by simp; rfl, respond_replies_of_no_read _ _⟩
  exact Steady.of_local.trans ((Steady.transport (transport_sameFlash fun _ => rfl)).trans .of_local)

theorem quadEvents_ne_nil (w : Width) (cr sr : Byte) : quadEvents w cr sr ≠ [] := by
  unfold quadEvents
  split <;> simp

end

/-! ### The terminal mode (R136) -/

/-- In MemoryMapped an Idle block refuses every host operation (R234 item 4). -/
theorem exec_refused_of_mapped {i : Instr} {s : State} (hidle : s.ctl = .idle) (hm : s.mode = .memoryMapped)
    (hi : (hostCode i).isSome = true) : exec i s = .refused .memoryMapped := by
  obtain ⟨code, hcode⟩ := Option.isSome_iff_exists.mp hi
  obtain ⟨o, body, hreq⟩ := exec_request hcode
  simp [hreq, request, acceptRefusal, hidle, hm]

/-! ### Statements that leave the mode alone (R134, R178) -/

/-- Neither the statement nor the procedure it calls writes the mode. -/
def Stmt.keepsMode : Stmt → Bool
  | .raiseMode | .enterQpi | .setQpi | .setMapped => false
  | .issue _ | .readRegister _ | .writeRegister _ _ | .testQe | .testWip | .pageProgram _ _ _ | .startChunks | .chunkLoop
  | .advance | .returnBytes | .storeDst => true

/-- What the act of such a statement has to keep: the mode, and that what it puts before the rest are such statements. -/
def ActKeepsMode (s : State) : Act → Prop
  | .skip t => t.mode = s.mode
  | .call _ before t => t.mode = s.mode ∧ ∀ st ∈ before, st.keepsMode = true
  | .fatal t => t.mode = s.mode

theorem act_keepsMode {st : Stmt} (h : st.keepsMode = true) (s : State) : ActKeepsMode s (act st s) := by
  cases st
  case raiseMode | enterQpi | setQpi | setMapped => cases h
  case testQe | testWip =>
    simp only [act]
    split <;> simp [ActKeepsMode, Stmt.keepsMode]
  case pageProgram =>
    simp only [act, pageProgramAct]
    split <;> simp [ActKeepsMode, Stmt.keepsMode, waitUntilIdle]
  case chunkLoop =>
    simp only [act, pageProgramAct]
    (repeat' split) <;> simp [ActKeepsMode, Stmt.keepsMode, waitUntilIdle]
  all_goals simp [act, ActKeepsMode]

/-- What local computation from such statements keeps: the mode, and that such statements are left behind a call. -/
def PendingKeepsMode (s : State) : Pending → Prop
  | .call _ l t => t.mode = s.mode ∧ ∀ st ∈ l, st.keepsMode = true
  | .ended t => t.mode = s.mode
  | .fatal t => t.mode = s.mode

theorem nextCall_keepsMode {k : List Stmt} (h : ∀ st ∈ k, st.keepsMode = true) (s : State) :
    PendingKeepsMode s (nextCall k s) := by
  induction k generalizing s with
  | nil => rfl
  | cons st k ih =>
    obtain ⟨hst, hk⟩ := List.forall_mem_cons.mp h
    have hact := act_keepsMode hst s
    simp only [nextCall]
    cases ha : act st s with
    | skip t =>
      rw [ha] at hact
      have hmode : t.mode = s.mode := hact
      simpa only [PendingKeepsMode, hmode] using ih hk t
    | call c before t =>
      rw [ha] at hact
      exact ⟨hact.1, List.forall_mem_append.mpr ⟨hact.2, hk⟩⟩
    | fatal t =>
      rw [ha] at hact
      exact hact

theorem settle_mode {s : State} (h : ∀ st ∈ s.rest, st.keepsMode = true) : (settle s).mode = s.mode := by
  have hn := nextCall_keepsMode h s
  rcases settle_cases s with ⟨hs, -⟩ | ⟨t, ht, hs⟩ | ⟨t, ht, hs⟩ <;> rw [hs]
  · rwa [ht] at hn
  · rwa [ht] at hn

/-- A step of a Busy block at such statements keeps the mode. -/
theorem blockStep_mode {s t : State} (h : ∀ st ∈ s.rest, st.keepsMode = true)
    (hstep : blockStepWith runBus s = .next t) : t.mode = s.mode := by
  have hp := nextCall_keepsMode h s
  rcases blockStep_next hstep with ⟨c, k, u, i, d, n, hn, -, -, -, rfl⟩ | ⟨u, hn, rfl⟩ | ⟨u, hn, rfl⟩ <;> rw [hn] at hp
  · obtain ⟨hmode, hleft⟩ := hp
    rw [settle_mode (by simpa using hleft), transport_mode]
    exact hmode
  · exact hp
  · exact hp

theorem resetBody_keepsMode : ∀ st ∈ resetBody, st.keepsMode = true := by decide

theorem resetAt_keepsMode : ∀ l ∈ resetAt [], ∀ st ∈ l, st.keepsMode = true := by decide

end Sys2Proof.Machine

namespace Sys2Proof.Proofs
open Sys2Proof.Machine Sys2Proof.Safety Sys2Proof.Claims

/-- Settles O23: the path of ENABLE_QUAD under the oracle, made by a run. -/
theorem enableQuadRuns : Obligations.EnableQuadRuns := by
  intro s cr sr rs ⟨hready, hr, henv, hrs⟩
  have hw := window_of_ready hready
  obtain ⟨v, hp, hv⟩ := enableQuad_path (u := accept 0x03 .nothing enableQuadBody s) (k := enableQuadBody) (k' := [])
    hw henv hrs rfl
  exact hp.completes hv (quadEvents_ne_nil _ cr sr) rfl hready hr

/-- Settles O24: with `qia` set the operation ends as it starts; else the path of ENTER_QPI, made by a run. -/
theorem enterQpiRuns : Obligations.EnterQpiRuns := by
  refine ⟨fun s hinv hready hq => ?_, fun s cr sr rs ⟨hready, hr, henv, hrs⟩ hq => ?_⟩
  · have hend : nextCall [.enterQpi] (accept 0x04 .nothing [.enterQpi] s) =
        .ended (accept 0x04 .nothing [.enterQpi] s) := by
      simp only [nextCall, act_enterQpi_set (s := accept 0x04 .nothing [.enterQpi] s) hq]
    have hexec : exec .enterQpi s = .next (finish (accept 0x04 .nothing [.enterQpi] s)) := by
      simp only [exec_of_ready (i := .enterQpi) rfl hready, blockStepWith, accept_rest, hend]
    obtain ⟨hended, hchunk, hdst, -⟩ := (Steady.of_local (s := accept 0x04 .nothing [.enterQpi] s)).ended hinv.port
    exact ⟨_, hexec, rfl, ⟨hended, hchunk, rfl, rfl, hdst⟩, rfl, rfl⟩
  · have hw := window_of_ready hready
    obtain ⟨v, hp, hv⟩ := enterQpi_path (u := accept 0x04 .nothing [.enterQpi] s) hq hw henv hrs []
    exact hp.completes hv (by simp [qpiEvents]) rfl hready hr

/-- Settles O25: refused in MemoryMapped; else the path of ENTER_QPI, which makes nothing where `qia` is set, and the arm. -/
theorem enterMemoryMapRuns : Obligations.EnterMemoryMapRuns := by
  refine ⟨fun s hidle hm => exec_refused_of_mapped hidle hm rfl, fun s hready hq => ?_,
    fun s cr sr rs ⟨hready, hr, henv, hrs⟩ hq => ?_⟩
  · have hw := window_of_ready hready
    obtain ⟨v, hmap, hv, hmode, hwindow, -⟩ := mapTail_path (u := accept 0x05 .nothing (.enterQpi :: mapTail) s) hw
    have hp : Path (.enterQpi :: mapTail) (accept 0x05 .nothing (.enterQpi :: mapTail) s) [.arm template] [] v :=
      .skip (act_enterQpi_set hq) hmap
    obtain ⟨hended, hchunk, hdst, hflash⟩ := hv.ended (hp.port_of_ne_nil (by simp))
    exact ⟨finish v, hp.exec_of_one rfl hready, hp.trace_eq, hended, hchunk, hmode, hwindow, hdst, hflash⟩
  · have hw := window_of_ready hready
    obtain ⟨v₁, hqpi, h₁⟩ := enterQpi_path (u := accept 0x05 .nothing (.enterQpi :: mapTail) s) hq hw henv hrs mapTail
    obtain ⟨v, hmap, h₂, hmode, hwindow, hreplies⟩ := mapTail_path h₁.unarmed
    have hp := hqpi.trans hmap
    have hne : quadEvents .single cr sr ++ qpiEvents s.params.readParams ++ [.arm template] ≠ [] := by simp
    obtain ⟨hended, hchunk, hdst, -⟩ := (h₁.steady.trans h₂).ended (hp.port_of_ne_nil hne)
    exact ⟨finish v, hp.runsThrough rfl hready hr hne, hended, hchunk, hmode, hwindow, hdst, hreplies.trans h₁.replies⟩

/-- Settles O22: the first call of ENABLE_QUAD is its read of CR, and the byte that came back decides whether the operation
has ended with it. -/
theorem quadEnableIdempotent : Obligations.QuadEnableIdempotent := by
  intro s hready
  have hw := window_of_ready hready
  obtain ⟨cr, v, hread, hrx, hreply, hv⟩ := registerRead_calls (u := accept 0x03 .nothing enableQuadBody s)
    (k := enableQuadBody) (k' := [.testQe, .raiseMode]) (.inr rfl) hw rfl
  obtain ⟨hrest, hctl, -⟩ := hread.leaves
  by_cases hq : cr &&& 0x02 = 0
  · have hset : settle v = v := settle_of_call (by rw [hrest]; exact nextCall_testQe_of_clear hrx hq [])
    have hexec : exec .enableQuad s = .next v := by
      rw [exec_of_ready (i := .enableQuad) rfl hready, hread.blockStep, hset]
    exact ⟨v, cr, hexec, hreply, hread.path.trace_eq, hv.steady.flash, fun h => absurd hq h, fun _ => hctl⟩
  · obtain ⟨w, hend, hw'⟩ := testQe_path_of_set hrx hq hv.unarmed []
    have hp := hread.path.trans hend
    have hsteady := hv.steady.trans hw'.steady
    obtain ⟨hended, hchunk, hdst, hflash⟩ := hsteady.ended (hp.port_of_ne_nil (by simp))
    have hreply' : Reply 1 s (finish w) [cr] := by
      refine ⟨rfl, fun henv henough => ?_⟩
      obtain ⟨hbytes, hleft⟩ := hreply.2 henv henough
      exact ⟨hbytes, hw'.replies.trans hleft⟩
    refine ⟨finish w, cr, hp.exec_of_one rfl hready, hreply', hp.trace_eq, hflash, fun _ => ?_, fun h => absurd h hq⟩
    exact ⟨hended, hchunk, hw'.mode.trans (congrArg raised hv.mode), hw'.unarmed.trans hw.symm, hdst⟩

/-- Settles O36: an Idle block in that mode refuses every operation, a block in it is not Busy, and a load changes none of
what is named. -/
theorem memoryMappedIsTerminal : Obligations.MemoryMappedIsTerminal := by
  refine ⟨fun s i hidle hm hi => exec_refused_of_mapped hidle hm hi, fun s t hinv hm hr hstep => ?_⟩
  have hb : s.ctl ≠ .busy := fun hb => (hinv.busy hb).1 hm
  rw [step_of_not_busy hr hb] at hstep
  rcases hostMove_next hstep with ⟨-, rfl⟩ | ⟨r, ms, i, -, hidle, hi, hrun⟩ | ⟨address, k, ms, -, hload⟩
  · exact ⟨hm, rfl, rfl, rfl⟩
  · obtain ⟨code, hcode⟩ := decodeHost_ok hi
    have hrefused := exec_refused_of_mapped (s := { s with agenda := ms, src := r.src }) hidle hm
      (Option.isSome_of_eq_some hcode)
    simp [hrefused] at hrun
  · obtain ⟨-, -, -, -, rfl⟩ := mmapLoad_next hload
    exact ⟨hm, rfl, rfl, rfl⟩

/-- Settles O42: every step advances, and no statement of RESET writes the mode. -/
theorem modeIsMonotone : Obligations.ModeIsMonotone := by
  refine ⟨fun s t hinv hr hstep => (step_advances hinv hr hstep).2, fun s t hexec => ?_,
    fun s t hinv hr hb hop hstep => ?_⟩
  · obtain ⟨-, hstep⟩ := request_next hexec
    exact blockStep_mode (s := accept 0x02 .nothing resetBody s) resetBody_keepsMode hstep
  · have hpos := (hinv.busy hb).2
    simp only [position, hop] at hpos
    rw [step_of_busy hr hb] at hstep
    exact blockStep_mode (resetAt_keepsMode _ hpos) hstep

end Sys2Proof.Proofs

/-! PROOFS. Register access (spec/42_register_access.md). An operation of one transport call ends with it, whatever operands
it took; a read that hands its bytes to the host; a write and what the reference device makes of it. Then the four register
operations, by the calls of READ_REGISTER and WRITE_REGISTER. -/
namespace Sys2Proof.Machine
open Sys2Proof.Claims

section
variable {k k' body : List Stmt} {s u v w : State} {e : Event} {i : Instr} {code : BitVec 5} {o : Operands}
  {d : Descriptor} {bs : List Byte}

/-! ### Operations of one call -/

/-- A block that is Ready accepts a request whose operands are not refused, and makes a Busy step (R10, R234). -/
theorem exec_of_accepted (hi : exec i s = request code o body s) (hs : Ready s) (ho : operandRefusal o s.src = none) :
    exec i s = blockStepWith runBus (accept code o body s) := by
  obtain ⟨hctl, hmode, -⟩ := hs
  simp [hi, request, acceptRefusal, hctl, hmode, ho]

/-- Where only local computation follows the first call, the operation has ended with that call (R10). -/
theorem Calls.exec_ends (h : Calls body (accept code o body s) e k v) (hend : nextCall k v = .ended w)
    (hi : exec i s = request code o body s) (hs : Ready s) (ho : operandRefusal o s.src = none) :
    exec i s = .next (finish w) := by
  obtain ⟨rfl, -⟩ := h.leaves
  have hstep : exec i s = .next (settle v) := (exec_of_accepted hi hs ho).trans h.blockStep
  rw [hstep, settle_of_ended hend]

/-- An operation that was steady and kept the mode and the window ends quietly, with the response it gave last. -/
theorem Standing.quietEnd {rs : List Byte} (hv : Standing (accept code o body s) s.mode rs v) (hs : Ready s)
    (hport : v.tx = [] ∧ v.count = 0) (r : Response) :
    QuietEnd (doneResponse r) s (finish { v with response := r, rx := bs }) := by
  obtain ⟨⟨hkept, ⟨hcursor, hremaining, hoff, hlen⟩, hdst, -, -⟩, hunarmed, hmode, -⟩ := hv
  have hkept' : Kept s v := (accept_kept code o body s).trans hkept
  refine ⟨⟨hkept'.trans ⟨rfl, rfl, rfl, rfl, rfl, rfl⟩, rfl, rfl, rfl, hport.1, hport.2, rfl⟩, ?_, hmode,
    hunarmed.trans (window_of_ready hs).symm, hdst.trans (accept_dst ..)⟩
  exact ⟨hcursor.trans (accept_cursor ..), hremaining.trans (accept_remaining ..), hoff.trans (accept_srcOff ..),
    hlen.trans (accept_chunkLen ..)⟩

/-- An operation that is one read and hands over what it received: its event, the bytes the environment returned, and a
quiet end with them (R152, R154, R215). -/
theorem Calls.returnsBytes {n : Nat} {rs : List Byte}
    (h : Calls body (accept code .nothing body s) (.rd d n bs) [.returnBytes] v) (hrx : v.rx = bs)
    (hreply : Reply n (accept code .nothing body s) v bs) (hv : Standing (accept code .nothing body s) s.mode rs v)
    (hi : exec i s = request code .nothing body s) (hs : Ready s) :
    ∃ t, exec i s = .next t ∧ Reply n s t bs ∧ t.trace = s.trace ++ [.rd d n bs] ∧ QuietEnd (.done bs) s t ∧
      SameFlash s t := by
  have hend : nextCall [.returnBytes] v = .ended { v with response := .done bs, rx := [] } := by rw [← hrx]; rfl
  obtain ⟨-, -, -, hport⟩ := h.leaves
  exact ⟨_, h.exec_ends hend hi hs rfl, hreply, h.path.trace_eq, hv.quietEnd hs hport (.done bs), hv.steady.flash⟩

/-! ### What a write makes of the reference device -/

/-- A call leaves the reference device as the effect of its event does, on the device as it stood (D26). -/
theorem transport_device_eq_refEffect (henv : s.env = .refFlash) (kd : Kind) (d : Descriptor) (n : Nat) :
    ∃ t, t.device = s.device ∧ (transport kd d n s).device = (refEffect d s.tx t).device := by
  by_cases hn : n = 0
  · exact ⟨s, rfl, by simp [respond, henv, hn]⟩
  · exact ⟨(refReply d n s).2, refReply_device d n s, by simp [respond, henv, hn]⟩

/-- An event that is a write is that of a call with its descriptor and payload (R11). -/
theorem eventOf_eq_wr {kd : Kind} {d' : Descriptor} {n : Nat} {tx reply : List Byte}
    (h : eventOf kd d' n tx reply = .wr d bs) : d' = d ∧ tx = bs := by
  cases kd <;> cases h
  exact ⟨rfl, rfl⟩

/-- So the reference device is left as the effect of a write that is an operation's call. -/
theorem Calls.device_of_write (h : Calls k u (.wr d bs) k' v) (henv : u.env = .refFlash) :
    ∃ t, t.device = u.device ∧ v.device = (refEffect d bs t).device := by
  obtain ⟨c, u', hn, hi, htrace⟩ := h
  obtain ⟨-, i, d', n, -, -, rfl⟩ := issueWith_next hi
  have hsame := nextCall_call_same hn
  rw [transport_trace, hsame.trace] at htrace
  obtain ⟨rfl, rfl⟩ := eventOf_eq_wr (List.singleton_inj.mp (List.append_cancel_left htrace))
  obtain ⟨t, ht, hdevice⟩ := transport_device_eq_refEffect
    (s := { u' with rest := k', tx := c.tx, count := c.count }) (hsame.env.trans henv) (kindOf i) d' n
  exact ⟨t, ht.trans hsame.device, hdevice⟩

end

/-! ### The register operations -/

section
variable {s : State} {i : Instr} {code : BitVec 5} {op : Byte}

/-- READ_REGISTER of either register, its byte handed to the host (R150, R152, R154). -/
theorem registerReadOperation_completes (hi : exec i s = request code .nothing [.readRegister op, .returnBytes] s)
    (hop : op = opRDSR1 ∨ op = opRDCR) (hs : Ready s) :
    ∃ t b, exec i s = .next t ∧ Reply 1 s t [b] ∧ t.trace = s.trace ++ [registerRead op (width s.qia) b] ∧
      QuietEnd (.done [b]) s t ∧ SameFlash s t := by
  have hw := window_of_ready hs
  obtain ⟨b, v, hread, hrx, hreply, hv⟩ := registerRead_calls
    (u := accept code .nothing [.readRegister op, .returnBytes] s) (k := [.readRegister op, .returnBytes])
    hop hw rfl
  obtain ⟨t, ht⟩ := hread.returnsBytes hrx hreply hv hi hs
  exact ⟨t, b, ht⟩

/-- WRITE_REGISTER of either register with the operand as it came, and its effect on the reference device (R151, R153,
R155). -/
theorem registerWriteOperation_completes {b : Byte} (hi : exec i s = request code (.value b) [.writeRegister op .latch] s)
    (hop : op = opWRSR1 ∨ op = opWRCR) (hs : Ready s) :
    ∃ t, exec i s = .next t ∧ t.trace = s.trace ++ [registerWrite op (width s.qia) b] ∧ QuietEnd (.done []) s t ∧
      SameFlash s t ∧
      (s.env = .refFlash → ∃ u, u.device = s.device ∧
        t.device = (refEffect (register op (width s.qia)) [b] u).device) := by
  have hw := window_of_ready hs
  obtain ⟨v, hwrite, hv⟩ := registerWrite_calls
    (u := accept code (.value b) [.writeRegister op .latch] s) (k := [.writeRegister op .latch]) (k' := [])
    (hop.imp_right .inl) hw rfl
  obtain ⟨-, -, -, hport⟩ := hwrite.leaves
  have hquiet : QuietEnd (doneResponse v.response) s (finish v) := hv.quietEnd hs hport v.response
  rw [hv.steady.response] at hquiet
  exact ⟨finish v, hwrite.exec_ends rfl hi hs rfl, hwrite.path.trace_eq, hquiet, hv.steady.flash,
    fun henv => hwrite.device_of_write henv⟩

end

end Sys2Proof.Machine

namespace Sys2Proof.Proofs
open Sys2Proof.Machine Sys2Proof.Claims

/-- Settles O17: READ_REGISTER of each register, and its byte handed over. -/
theorem registerReadOperations : Obligations.RegisterReadOperations := fun _ hs =>
  ⟨registerReadOperation_completes rfl (.inl rfl) hs, registerReadOperation_completes rfl (.inr rfl) hs⟩

/-- Settles O18: WRITE_REGISTER of each register; on the reference device the effect of the event puts the value in the
register its opcode names and leaves the other. -/
theorem registerWriteOperations : Obligations.RegisterWriteOperations := by
  intro s v hs
  obtain ⟨t, hexec, htrace, hquiet, hflash, hdevice⟩ :=
    registerWriteOperation_completes (i := .writeSr1 v) rfl (.inl rfl) hs
  obtain ⟨t', hexec', htrace', hquiet', hflash', hdevice'⟩ :=
    registerWriteOperation_completes (i := .writeCr v) rfl (.inr rfl) hs
  refine ⟨⟨t, hexec, htrace, hquiet, hflash, fun henv => ?_⟩, ⟨t', hexec', htrace', hquiet', hflash', fun henv => ?_⟩⟩
  · obtain ⟨u, hu, ht⟩ := hdevice henv
    rw [ht, ← hu]
    exact ⟨rfl, rfl⟩
  · obtain ⟨u, hu, ht⟩ := hdevice' henv
    rw [ht, ← hu]
    exact ⟨rfl, rfl⟩

end Sys2Proof.Proofs

/-! PROOFS. Write-enable adjacency (spec/43_program_erase_sequencer.md R180), over every run. A position `Obeys` the
pattern from a phase when each event its statements can make keeps to it and the last leaves nothing owed; every step
keeps that, whatever the position, and the pseudocode of every operation obeys from the calm phase. -/
namespace Sys2Proof.Machine
open Sys2Proof.Safety Sys2Proof.Claims

/-! ### Events in the pattern of R180 -/

/-- The opcodes of the erases and the program (R180). -/
def modifyingOpcodes : List Byte := [0x20, 0x52, 0xD8, 0xC7, 0x32]

/-- The opcodes the pattern speaks of: those, and the write-enable. -/
def patternOpcodes : List Byte := 0x06 :: modifyingOpcodes

/-- An event the pattern does not speak of. -/
def Quiet (e : Event) : Prop := mutates e = false ∧ e ≠ writeEnable

theorem quiet_of_opcode {e : Event} (h : (descriptorOf e).opcode ∉ patternOpcodes) : Quiet e := by
  refine ⟨decide_eq_false fun hm => h (List.mem_cons_of_mem _ hm), ?_⟩
  rintro rfl
  exact h (List.mem_cons_self ..)

/-- Where no poll is owed such an event leaves nothing owed. -/
theorem Quiet.after {p : Phase} {e : Event} (h : Quiet e) (hp : p ≠ .waiting) : p.after e = some .calm := by
  obtain ⟨hm, he⟩ := h
  cases p with
  | calm => simp [Phase.after, hm, he]
  | enabled => simp [Phase.after, hm, he]
  | waiting => exact absurd rfl hp

theorem phaseOf_concat {p q r : Phase} {es : List Event} {e : Event} (h : phaseOf p es = some q)
    (he : q.after e = some r) : phaseOf p (es ++ [e]) = some r := by
  induction es generalizing p with
  | nil =>
    cases h
    simp [phaseOf, he]
  | cons e' es ih =>
    simp only [phaseOf, List.cons_append] at h ⊢
    split at h
    · cases h
    · exact ih h

theorem wipSet_of_set {b : Byte} (hb : b &&& 0x01 ≠ 0) : wipSet b = true := decide_eq_true hb

theorem wipSet_of_clear {b : Byte} (hb : b &&& 0x01 = 0) : wipSet b = false := decide_eq_false (not_not.mpr hb)

/-- A poll that answers WIP set leaves the busy-wait going, and one that answers it clear ends it (R172, R180). -/
theorem after_poll (q : Bool) (b : Byte) :
    Phase.waiting.after (registerRead 0x05 (width q) b) = if wipSet b then some .waiting else some .calm := by
  have hpoll : pollByte (registerRead 0x05 (width q) b) = some b := by cases q <;> rfl
  by_cases hb : b &&& 0x01 = 0
  · simp only [Phase.after, hpoll, if_pos hb, wipSet_of_clear hb]
    rfl
  · simp only [Phase.after, hpoll, if_neg hb, if_pos (wipSet_of_set hb)]

/-! ### What the calls of the pseudocode make -/

/-- The events of a call with a packed legal descriptor have that descriptor (R97). -/
theorem makes_descriptor {c : Call} {d : Descriptor} {e : Event} (hd : d.legal) (hc : c.word = d.pack)
    (h : c.makes e) : descriptorOf e = d := by
  obtain ⟨i, d', n, tx, reply, hi, hrow, rfl⟩ := h
  obtain ⟨d'', hunpack, hrow'⟩ := decodeBus_ok hi
  rw [hc, unpack_pack hd] at hunpack
  cases hunpack
  rw [hrow] at hrow'
  cases hrow'
  exact descriptorOf_eventOf ..

theorem makes_descriptor_of_row {i : Instr} {d : Descriptor} {tx : List Byte} {n : Nat} {e : Event}
    (hd : busDescriptor i = some d) (h : (busCall i tx n).makes e) : descriptorOf e = d :=
  makes_descriptor (busDescriptor_legal hd) (busCall_word hd tx n) h

theorem quiet_of_row {i : Instr} {d : Descriptor} {tx : List Byte} {n : Nat} (hd : busDescriptor i = some d)
    (hop : d.opcode ∉ patternOpcodes) (e : Event) (h : (busCall i tx n).makes e) : Quiet e :=
  quiet_of_opcode (by rwa [makes_descriptor_of_row hd h])

theorem quiet_of_registerCall {op : Byte} (hop : op ∉ patternOpcodes) (tx : List Byte) (s : State) (e : Event)
    (h : (registerCall op tx s).makes e) : Quiet e := by
  have hlegal : (registerAccess op (modeWidth s)).legal := by simp [Descriptor.legal, registerAccess]
  refine quiet_of_opcode ?_
  rwa [makes_descriptor hlegal rfl h]

/-- An event of the table that a read of SR1 makes is a poll with its one byte (R86, R172). -/
theorem makes_poll {s : State} {e : Event} (h : (registerCall opRDSR1 [] s).makes e) (ht : TableEvent e) :
    ∃ b, e = registerRead 0x05 (width s.qia) b := by
  obtain ⟨i, d, n, tx, reply, hi, hd, rfl⟩ := h
  have hrow : decodeBus (registerCall opRDSR1 [] s).word = .ok (.rdsr1 s.qia) := decodeBus_pack rfl
  rw [hrow] at hi
  cases hi
  cases hd
  obtain ⟨hlen, ⟨-, hid⟩ | ⟨rfl, -⟩ | ⟨-, a, hregion⟩⟩ := ht
  · cases congrArg Descriptor.opcode hid
  · obtain ⟨b, rfl⟩ := List.length_eq_one_iff.mp hlen
    exact ⟨b, rfl⟩
  · cases congrArg Descriptor.opcode hregion

/-! ### Positions that obey the pattern -/

/-- The bytes received once an event has been made: those of a read, else those that stood there (R26). -/
def received (rx : List Byte) : Event → List Byte
  | .rd _ _ bytes => bytes
  | .cmd _ | .wr _ _ | .arm _ => rx

theorem received_eventOf (rx : List Byte) (k : Kind) (d : Descriptor) (n : Nat) (tx reply : List Byte) :
    received rx (eventOf k d n tx reply) = if k = .read then reply else rx := by cases k <;> rfl

/-- Each event of the table that the call can make keeps to the pattern and leads to a phase and bytes received of which
`P` holds. -/
def Leads (c : Call) (P : Phase → List Byte → Prop) (p : Phase) (rx : List Byte) : Prop :=
  ∀ e, c.makes e → TableEvent e → ∃ q, p.after e = some q ∧ P q (received rx e)

/-- From the phase `p` and the bytes received `rx` the statements keep to the pattern and end with nothing owed. The
byte that WAIT_UNTIL_IDLE tests has WIP set while a poll is owed; every statement but a call and `mode <- QPI` stands
where nothing is owed. -/
def Obeys : List Stmt → Phase → List Byte → Prop
  | [], p, _ => p = .calm
  | .issue c :: k, p, rx => Leads c (Obeys k) p rx
  | .readRegister op :: k, p, rx => ∀ s, Leads (registerCall op [] s) (Obeys k) p rx
  | .writeRegister op _ :: k, p, _ => ∀ s v, Leads (registerCall op [v] s) (Obeys k) p []
  | .testWip :: k, p, rx =>
    (p = .calm ∨ p = .waiting ∧ wipSet (firstByte rx) = true) ∧ ∀ rx', Obeys k .calm rx'
  | .setQpi :: k, p, rx => Obeys k p rx
  | _ :: k, p, _ => p = .calm ∧ ∀ rx', Obeys k .calm rx'

section
variable {P : Phase → List Byte → Prop} {p : Phase} {c : Call} {k : List Stmt} {rx : List Byte} {s : State}

theorem leads_of_quiet (hc : ∀ e, c.makes e → Quiet e) (hp : p ≠ .waiting) (hP : ∀ rx', P .calm rx') :
    Leads c P p rx := fun e he _ => ⟨.calm, (hc e he).after hp, hP _⟩

/-- The write-enable owes an erase or a program, or is forgotten (R171, R180). -/
theorem leads_writeEnable (hP : ∀ rx', P .enabled rx') : Leads (busCall .wren [] 0) P .calm rx := by
  intro e he _
  have hwren : e = writeEnable := makes_command rfl rfl he
  exact ⟨.enabled, by rw [hwren]; rfl, hP _⟩

/-- A poll owes another where it answers WIP set to a busy-wait (R172, R180). -/
theorem leads_poll (hp : p ≠ .enabled) (hcalm : ∀ rx', P .calm rx')
    (hwait : ∀ rx', wipSet (firstByte rx') = true → P .waiting rx') : Leads (registerCall opRDSR1 [] s) P p rx := by
  cases p with
  | calm => exact leads_of_quiet (quiet_of_registerCall (by decide) [] s) nofun hcalm
  | enabled => exact absurd rfl hp
  | waiting =>
    intro e he ht
    obtain ⟨b, rfl⟩ := makes_poll he ht
    rw [after_poll]
    split
    · exact ⟨.waiting, rfl, hwait [b] ‹_›⟩
    · exact ⟨.calm, rfl, hcalm [b]⟩

theorem obeys_testWip (hp : p = .calm ∨ p = .waiting ∧ wipSet (firstByte rx) = true)
    (hk : ∀ rx', Obeys k .calm rx') : Obeys (.testWip :: k) p rx := ⟨hp, hk⟩

/-- WAIT_UNTIL_IDLE, whether polls are owed or not (R172). -/
theorem obeys_waitUntilIdle (hp : p ≠ .enabled) (hk : ∀ rx', Obeys k .calm rx') : Obeys (waitUntilIdle ++ k) p rx :=
  fun _ => leads_poll hp (fun _ => obeys_testWip (.inl rfl) hk) fun _ hw => obeys_testWip (.inr ⟨rfl, hw⟩) hk

/-- After the write-enable, the erase or program and the busy-wait (R170). -/
theorem obeys_modification {i : Instr} {d : Descriptor} {tx : List Byte} {n : Nat} (hd : busDescriptor i = some d)
    (hop : d.opcode ∈ modifyingOpcodes) (hk : ∀ rx', Obeys k .calm rx') :
    Obeys (.issue (busCall i tx n) :: (waitUntilIdle ++ k)) .enabled rx := by
  intro e he _
  have hm : mutates e = true := decide_eq_true (by rwa [makes_descriptor_of_row hd he])
  exact ⟨.waiting, if_pos hm, obeys_waitUntilIdle nofun hk⟩

/-- Statements that start and end with nothing owed, where they stand on their own. -/
def Stmt.calm : Stmt → Prop
  | .issue c => ∀ e, c.makes e → Quiet e
  | .readRegister op | .writeRegister op _ => op ∉ patternOpcodes
  | .testQe | .raiseMode | .enterQpi | .setQpi | .setMapped | .testWip | .pageProgram _ _ _ | .startChunks | .chunkLoop
  | .advance | .returnBytes | .storeDst => True

theorem obeys_calm_append {l : List Stmt} (hl : ∀ st ∈ l, st.calm) (hk : ∀ rx', Obeys k .calm rx') (rx : List Byte) :
    Obeys (l ++ k) .calm rx := by
  induction l generalizing rx with
  | nil => exact hk rx
  | cons st l ih =>
    obtain ⟨hst, hl⟩ := List.forall_mem_cons.mp hl
    have hrest := ih hl
    cases st with
    | issue c => exact leads_of_quiet hst nofun hrest
    | readRegister op => exact fun s => leads_of_quiet (quiet_of_registerCall hst [] s) nofun hrest
    | writeRegister op v => exact fun s b => leads_of_quiet (quiet_of_registerCall hst [b] s) nofun hrest
    | testWip => exact obeys_testWip (.inl rfl) hrest
    | setQpi => exact hrest rx
    | _ => exact ⟨rfl, hrest⟩

theorem obeys_of_calm {l : List Stmt} (hl : ∀ st ∈ l, st.calm) (rx : List Byte) : Obeys l .calm rx := by
  simpa using obeys_calm_append hl (k := []) (fun _ => rfl) rx

/-- ENTER_QPI after its read of CR: its write-enable is followed by the parameter write (R132). -/
theorem obeys_afterCrRead (hk : ∀ rx', Obeys k .calm rx') (rx : List Byte) : Obeys (afterCrRead ++ k) .calm rx := by
  have henqpi : (Stmt.issue (busCall .enqpi [] 0)).calm := quiet_of_row rfl (by decide)
  have hlast : ∀ rx', Obeys (.writeRegister opSRP .readParams :: k) .enabled rx' := fun _ s v =>
    leads_of_quiet (quiet_of_registerCall (by decide) [v] s) nofun hk
  refine obeys_calm_append (l := [.testQe, .raiseMode, .issue (busCall .enqpi [] 0)])
    (k := .issue (busCall .wren [] 0) :: .setQpi :: .writeRegister opSRP .readParams :: k) ?_
    (fun _ => leads_writeEnable hlast) rx
  simpa [Stmt.calm] using henqpi

/-! ### What obedient statements do -/

/-- What the act of an obedient statement has to leave, `k` to follow. -/
def ActObeys (k : List Stmt) (p : Phase) : Act → Prop
  | .skip t => Obeys k p t.rx
  | .call c before t => Leads c (Obeys (before ++ k)) p t.rx
  | .fatal _ => p = .calm

/-- PAGE_PROGRAM: the fault before its write-enable, or the whole of the pattern (R177). -/
theorem pageProgramAct_obeys {before : List Stmt} (h : ∀ rx', Obeys (before ++ k) .calm rx') (a : Addr) (n off : Nat)
    (s : State) : ActObeys k .calm (pageProgramAct a n off before s) := by
  unfold pageProgramAct
  split
  · rfl
  · refine leads_writeEnable fun rx' => ?_
    rw [List.cons_append, List.append_assoc]
    exact obeys_modification (i := .qpp a) rfl (show opQPP ∈ modifyingOpcodes by decide) h

theorem act_obeys {st : Stmt} (h : Obeys (st :: k) p s.rx) : ActObeys k p (act st s) := by
  cases st with
  | issue c => exact h
  | readRegister op => exact h s
  | writeRegister op v => exact h s _
  | testWip =>
    obtain ⟨hp, hk⟩ := h
    simp only [act]
    split
    · exact leads_poll (by rcases hp with rfl | ⟨rfl, -⟩ <;> nofun) (fun _ => obeys_testWip (.inl rfl) hk)
        fun _ hw => obeys_testWip (.inr ⟨rfl, hw⟩) hk
    · obtain rfl : p = .calm := hp.resolve_right fun hw => ‹¬ _› hw.2
      exact hk []
  | testQe =>
    obtain ⟨rfl, hk⟩ := h
    simp only [act]
    split
    · exact hk []
    · exact leads_of_quiet (quiet_of_registerCall (by decide) _ s) nofun
        (obeys_calm_append (by simp [Stmt.calm, patternOpcodes, modifyingOpcodes, opRDSR1, opWRSR1]) hk)
  | enterQpi =>
    obtain ⟨rfl, hk⟩ := h
    simp only [act]
    split
    · exact hk s.rx
    · exact leads_of_quiet (quiet_of_registerCall (by decide) [] s) nofun (obeys_afterCrRead hk)
  | setQpi => exact h
  | pageProgram a n off =>
    obtain ⟨rfl, hk⟩ := h
    exact pageProgramAct_obeys (before := []) hk a n off s
  | chunkLoop =>
    obtain ⟨rfl, hk⟩ := h
    simp only [act]
    split
    · exact hk s.rx
    · exact pageProgramAct_obeys (before := [.advance, .chunkLoop]) (fun _ => ⟨rfl, fun _ => ⟨rfl, hk⟩⟩) _ _ _ _
  | _ =>
    obtain ⟨rfl, hk⟩ := h
    exact hk _

/-- What local computation from an obedient position leaves. -/
def PendingObeys (p : Phase) : Pending → Prop
  | .call c l t => Leads c (Obeys l) p t.rx
  | .ended _ => p = .calm
  | .fatal _ => p = .calm

theorem nextCall_obeys (h : Obeys k p s.rx) : PendingObeys p (nextCall k s) := by
  induction k generalizing s with
  | nil => exact h
  | cons st k ih =>
    have hact := act_obeys h
    simp only [nextCall]
    cases ha : act st s with
    | skip t =>
      rw [ha] at hact
      exact ih hact
    | call c before t =>
      rw [ha] at hact
      exact hact
    | fatal t =>
      rw [ha] at hact
      exact hact

end

/-! ### The pattern across a step -/

/-- The trace keeps to the pattern of R180, and so will the position. -/
def Patterned (s : State) : Prop := ∃ p, phaseOf .calm s.trace = some p ∧ Obeys s.rest p s.rx

/-- Where no statement is left nothing is owed. -/
theorem Patterned.calm {s : State} (h : Patterned s) (hrest : s.rest = []) : phaseOf .calm s.trace = some .calm := by
  obtain ⟨p, htrace, hobeys⟩ := h
  rw [hrest] at hobeys
  exact htrace.trans (congrArg some hobeys)

theorem settle_patterned {s : State} (h : Patterned s) : Patterned (settle s) := by
  obtain ⟨p, htrace, hobeys⟩ := h
  have hn := nextCall_obeys hobeys
  rcases settle_cases s with ⟨hs, -⟩ | ⟨t, ht, hs⟩ | ⟨t, ht, hs⟩ <;> rw [hs]
  · exact ⟨p, htrace, hobeys⟩
  · rw [ht] at hn
    exact ⟨p, (congrArg (phaseOf .calm) (nextCall_ended_same ht).trace).trans htrace, hn⟩
  · rw [ht] at hn
    exact ⟨p, (congrArg (phaseOf .calm) (nextCall_fatal_same ht).trace).trans htrace, hn⟩

/-- A transport call whose event its position leads to. -/
theorem transport_patterned {kd : Kind} {d : Descriptor} {n : Nat} {c : Call} {p : Phase} {s : State}
    (htrace : phaseOf .calm s.trace = some p) (hleads : Leads c (Obeys s.rest) p s.rx)
    (hmakes : c.makes (eventOf kd d n s.tx (respond d n s).1))
    (htable : TableEvent (eventOf kd d n s.tx (respond d n s).1)) : Patterned (transport kd d n s) := by
  obtain ⟨q, hq, hleft⟩ := hleads _ hmakes htable
  rw [received_eventOf] at hleft
  refine ⟨q, ?_, ?_⟩
  · rw [transport_trace]
    exact phaseOf_concat htrace hq
  · rwa [transport_rest, transport_rx]

/-- The event of a Busy step is one its position leads to: it is of the table, as every event is (R90). -/
theorem blockStep_patterned {s t : State} (h : Patterned s) (hstep : blockStepWith runBus s = .next t) :
    Patterned t := by
  have happends := blockStep_appends hstep
  obtain ⟨p, htrace, hobeys⟩ := h
  have hp := nextCall_obeys hobeys
  rcases blockStep_next hstep with ⟨c, l, u, i, d, n, hn, hi, hd, -, rfl⟩ | ⟨u, hn, rfl⟩ | ⟨u, hn, rfl⟩ <;> rw [hn] at hp
  · have hu : u.trace = s.trace := (nextCall_call_same hn).trace
    rw [← hu] at htrace
    refine settle_patterned (transport_patterned htrace hp ⟨i, d, n, c.tx, _, hi, hd, rfl⟩ ?_)
    simpa [AppendsTableEvent, settle_outside, ← hu] using happends
  · exact ⟨p, (congrArg (phaseOf .calm) (nextCall_ended_same hn).trace).trans htrace, hp⟩
  · exact ⟨p, (congrArg (phaseOf .calm) (nextCall_fatal_same hn).trace).trans htrace, hp⟩

/-- An erase, as it starts (R170). -/
theorem obeys_eraseBody {cmd : Instr} {d : Descriptor} (hd : busDescriptor cmd = some d)
    (hop : d.opcode ∈ modifyingOpcodes) (rx : List Byte) : Obeys (eraseBody cmd) .calm rx :=
  leads_writeEnable fun _ => obeys_modification hd hop fun _ => rfl

/-- RESET is of commands the pattern does not speak of, and polls that are not owed (R178). -/
theorem resetBody_calm : ∀ st ∈ resetBody, st.calm := by
  have hrsten : ∀ w, (Stmt.issue (busCall (.rsten w) [] 0)).calm := fun _ =>
    quiet_of_row rfl (show opRSTEN ∉ patternOpcodes by decide)
  have hrst : ∀ w, (Stmt.issue (busCall (.rst w) [] 0)).calm := fun _ =>
    quiet_of_row rfl (show opRST ∉ patternOpcodes by decide)
  have hwait : ∀ st ∈ waitUntilIdle, st.calm := by
    simp [waitUntilIdle, Stmt.calm, patternOpcodes, modifyingOpcodes, opRDSR1]
  exact List.forall_mem_append.mpr ⟨by simp [hrsten, hrst], hwait⟩

theorem enableQuadBody_calm : ∀ st ∈ enableQuadBody, st.calm := by
  simp [enableQuadBody, Stmt.calm, patternOpcodes, modifyingOpcodes, opRDCR]

/-- The pseudocode of every operation obeys the pattern as it starts. -/
theorem exec_obeys_request {i : Instr} {code : BitVec 5} (h : hostCode i = some code) :
    ∃ o body, (∀ s, exec i s = request code o body s) ∧ ∀ rx, Obeys body .calm rx := by
  cases i <;> cases h
  case init =>
    exact ⟨_, _, fun _ => rfl, obeys_of_calm (List.forall_mem_append.mpr ⟨resetBody_calm, enableQuadBody_calm⟩)⟩
  case reset => exact ⟨_, _, fun _ => rfl, obeys_of_calm resetBody_calm⟩
  case enableQuad => exact ⟨_, _, fun _ => rfl, obeys_of_calm enableQuadBody_calm⟩
  case enterMemoryMap =>
    have harm : (Stmt.issue (busCall .qioread [] 0)).calm := quiet_of_row rfl (by decide)
    exact ⟨_, _, fun _ => rfl, obeys_of_calm (List.forall_mem_cons.mpr
      ⟨trivial, List.forall_mem_cons.mpr ⟨harm, by simp [Stmt.calm]⟩⟩)⟩
  case readIdentify =>
    have hread : (Stmt.issue (busCall .rdid [] 0)).calm := quiet_of_row rfl (by decide)
    exact ⟨_, _, fun _ => rfl, obeys_of_calm (List.forall_mem_cons.mpr ⟨hread, by simp [Stmt.calm]⟩)⟩
  case readRegion a n =>
    have hread : (Stmt.issue (busCall (.qread a) [] n)).calm :=
      quiet_of_row rfl (show opQREAD ∉ patternOpcodes by decide)
    exact ⟨_, _, fun _ => rfl, obeys_of_calm (List.forall_mem_cons.mpr ⟨hread, by simp [Stmt.calm]⟩)⟩
  case sectorErase => exact ⟨_, _, fun _ => rfl, obeys_eraseBody rfl (show opSE ∈ modifyingOpcodes by decide)⟩
  case blockErase32k => exact ⟨_, _, fun _ => rfl, obeys_eraseBody rfl (show opBE32 ∈ modifyingOpcodes by decide)⟩
  case blockErase64k => exact ⟨_, _, fun _ => rfl, obeys_eraseBody rfl (show opBE64 ∈ modifyingOpcodes by decide)⟩
  case chipErase => exact ⟨_, _, fun _ => rfl, obeys_eraseBody rfl (show opCE ∈ modifyingOpcodes by decide)⟩
  all_goals exact ⟨_, _, fun _ => rfl, obeys_of_calm
    (by simp [Stmt.calm, patternOpcodes, modifyingOpcodes, opRDSR1, opRDCR, opWRSR1, opWRCR])⟩

/-- A move of the host to a block at rest. -/
theorem hostMove_patterned {s t : State} (h : Patterned s) (hrest : s.rest = []) (hmove : hostMove exec s = .next t) :
    Patterned t := by
  rcases hostMove_next hmove with ⟨-, rfl⟩ | ⟨r, ms, i, -, -, hi, hrun⟩ | ⟨address, k, ms, -, hload⟩
  · exact h
  · obtain ⟨code, hcode⟩ := decodeHost_ok hi
    obtain ⟨o, body, hreq, hbody⟩ := exec_obeys_request hcode
    obtain ⟨-, hstep⟩ := request_next (hreq _ ▸ hrun)
    exact blockStep_patterned ⟨.calm, by simpa using h.calm hrest, hbody _⟩ hstep
  · obtain ⟨-, -, -, -, rfl⟩ := mmapLoad_next hload
    exact h

/-- Every step keeps the pattern; hardware reset clears the trace (R34). -/
theorem step_patterned {s t : State} (hinv : Inv s) (h : Patterned s) (hstep : step s = .next t) : Patterned t := by
  rcases step_next hstep with ⟨-, rfl⟩ | ⟨-, -, hblock⟩ | ⟨-, hb, hmove⟩
  · exact ⟨.calm, rfl, rfl⟩
  · exact blockStep_patterned h hblock
  · exact hostMove_patterned h (hinv.still hb).1 hmove

end Sys2Proof.Machine

namespace Sys2Proof.Proofs
open Sys2Proof.Machine Sys2Proof.Safety Sys2Proof.Claims

/-- Settles O45: every step keeps the invariant and the pattern, and a block that is not Busy has no statement left that
owes anything. -/
theorem writeEnableAdjacency : Obligations.WriteEnableAdjacency := by
  intro s t k hinv hidle htrace hrun
  have hrest : s.rest = [] := (hinv.still (by simp [hidle])).1
  have hstart : Patterned s := ⟨.calm, htrace, by rw [hrest]; rfl⟩
  obtain ⟨hinv', hend⟩ : Inv t ∧ Patterned t := RunsTo.keeps (P := fun u => Inv u ∧ Patterned u)
    (fun u v hu hstep => ⟨everyStepKeepsInvariant u v hu.1 hstep, step_patterned hu.1 hu.2 hstep⟩) ⟨hinv, hstart⟩ hrun
  refine ⟨?_, fun hb => hend.calm (hinv'.still hb).1⟩
  obtain ⟨p, hp, -⟩ := hend
  exact ⟨p, hp⟩

end Sys2Proof.Proofs

/-! PROOFS. The program and erase sequencer (spec/43_program_erase_sequencer.md). Under the oracle, the path of
WAIT_UNTIL_IDLE for any number of polls, that of the reset sequence, and that of the pattern of R170: the write-enable, a
command and the busy-wait. Then the operations made of them, and the page check of PAGE_PROGRAM. -/
namespace Sys2Proof.Machine
open Sys2Proof.Safety Sys2Proof.Claims

section
variable {k k' l body : List Stmt} {s u u' v w : State} {e : Event} {es : List Event} {i : Instr}
  {code : BitVec 5} {o : Operands} {d : Descriptor} {busy rs rs' : List Byte} {last : Byte}

/-! ### Paths that keep the mode and end quietly -/

theorem Standing.trans (h : Standing u u.mode rs' v) (h' : Standing v v.mode rs w) : Standing u u.mode rs w :=
  h.mode ▸ h.steady.standing h'

/-- A path that makes an event starts with local computation, so it starts from wherever that leads to the same call. -/
theorem Path.of_nextCall_eq (h : Path l w es k' v) (hes : es ≠ []) (hn : nextCall k u = nextCall l w)
    (htrace : u.trace = w.trace) : Path k u es k' v := by
  obtain ⟨e, es, rfl⟩ := List.exists_cons_of_ne_nil hes
  obtain ⟨k₁, x, ⟨c, w', hcall, hi, hx⟩, hp⟩ := h.head
  exact .call ⟨c, w', hn.trans hcall, hi, htrace ▸ hx⟩ hp

/-- An operation whose operands are accepted and whose path is steady and keeps the mode is run through, and ends
quietly. -/
theorem Path.endsQuietly (h : Path body (accept code o body s) es [] v)
    (hv : Standing (accept code o body s) s.mode rs v) (hes : es ≠ []) (hi : exec i s = request code o body s)
    (ho : operandRefusal o s.src = none) (hs : Ready s) (hr : s.resetPending = false) :
    ∃ t, RunsThrough i s es t ∧ QuietEnd (.done []) s t ∧ t.replies = rs := by
  have hquiet : QuietEnd (doneResponse v.response) s (finish v) := hv.quietEnd hs (h.port_of_ne_nil hes) v.response
  rw [hv.steady.response] at hquiet
  have htrace : (finish v).trace = s.trace ++ es := by simpa using h.trace_eq
  obtain ⟨e, es, rfl⟩ := List.exists_cons_of_ne_nil hes
  obtain ⟨k₁, w, hc, hp⟩ := h.head
  obtain ⟨rfl, hctl, hreset, -⟩ := hc.leaves
  have hrun : RunsTo es.length (settle w) (finish v) := hp.runsTo hctl (by simpa [hr] using hreset)
  exact ⟨finish v, ⟨settle w, (exec_of_accepted hi hs ho).trans hc.blockStep, hrun, htrace⟩, hquiet, hv.replies⟩

/-! ### WAIT_UNTIL_IDLE (R172) -/

theorem polls_ne_nil (q : Bool) (busy : List Byte) (last : Byte) : polls q (busy ++ [last]) ≠ [] := by simp [polls]

/-- With WIP set in the byte that came back the busy-wait starts again, the byte being used (R26, R172). -/
theorem nextCall_testWip_of_set (h : wipSet (firstByte u.rx) = true) (k : List Stmt) :
    nextCall (.testWip :: k) u = nextCall (waitUntilIdle ++ k) { u with rx := [] } := by
  simp only [nextCall, act_testWip_set h]
  rfl

/-- One poll for each byte that is lined up, up to the first with WIP clear (R172). -/
theorem waitUntilIdle_path (hwaits : Waits busy last) (hw : u.window = none) (henv : u.env = .oracle)
    (hrs : u.replies = busy ++ last :: rs) (k : List Stmt) :
    ∃ v, Path (waitUntilIdle ++ k) u (polls u.qia (busy ++ [last])) k v ∧ Standing u u.mode rs v := by
  obtain ⟨hbusy, hlast⟩ := hwaits
  induction busy generalizing u with
  | nil =>
    obtain ⟨v, hpoll, hrx, hv⟩ := registerRead_calls_of_oracle (k := waitUntilIdle ++ k) (k' := .testWip :: k)
      (.inl rfl) henv hrs hw rfl
    have hclear : wipSet (firstByte v.rx) = false := by rw [hrx]; exact wipSet_of_clear hlast
    exact ⟨_, .call hpoll (.skip (act_testWip_clear hclear) (.refl k _)),
      hv.steady.trans .of_local, hv.unarmed, hv.mode, hv.replies⟩
  | cons b busy ih =>
    obtain ⟨hb, hbusy⟩ := List.forall_mem_cons.mp hbusy
    obtain ⟨v, hpoll, hrx, hv⟩ := registerRead_calls_of_oracle (k := waitUntilIdle ++ k) (k' := .testWip :: k)
      (.inl rfl) henv hrs hw rfl
    have hset : wipSet (firstByte v.rx) = true := by rw [hrx]; exact wipSet_of_set hb
    obtain ⟨x, hp, hx⟩ := ih (u := { v with rx := [] }) hv.unarmed (hv.steady.kept.env.trans henv) hv.replies hbusy
    have hagain := hp.of_nextCall_eq (polls_ne_nil _ busy last) (nextCall_testWip_of_set hset k) rfl
    rw [qia_of_mode (v := { v with rx := [] }) (u := u) hv.mode] at hagain
    exact ⟨x, .call hpoll hagain, hv.trans (Steady.of_local.standing hx)⟩

/-! ### RESET (R178) -/

/-- A pair of the reset sequence, at one width (R89, R178). -/
theorem resetPair_path (q : Bool) (hw : u.window = none) (k : List Stmt) :
    ∃ v, Path (.issue (busCall (.rsten q) [] 0) :: .issue (busCall (.rst q) [] 0) :: k) u
        [bare 0x66 (width q), bare 0x99 (width q)] k v ∧ Standing u u.mode u.replies v := by
  obtain ⟨v₁, hrsten, h₁⟩ := command_calls (i := .rsten q) rfl (fun _ => rfl) (fun _ _ => rfl) hw
    (.issue (busCall (.rst q) [] 0) :: k)
  obtain ⟨v₂, hrst, h₂⟩ := command_calls (i := .rst q) rfl (fun _ => rfl) (fun _ _ => rfl) h₁.unarmed k
  exact ⟨v₂, .call hrsten hrst.path, h₁.replies ▸ h₁.trans h₂⟩

theorem resetBody_path (hwaits : Waits busy last) (hw : u.window = none) (henv : u.env = .oracle)
    (hrs : u.replies = busy ++ last :: rs) (k : List Stmt) :
    ∃ v, Path (resetBody ++ k) u (resetEvents ++ polls u.qia (busy ++ [last])) k v ∧ Standing u u.mode rs v := by
  obtain ⟨v₁, hquad, h₁⟩ := resetPair_path true hw
    (.issue (busCall (.rsten false) [] 0) :: .issue (busCall (.rst false) [] 0) :: (waitUntilIdle ++ k))
  obtain ⟨v₂, hsingle, h₂⟩ := resetPair_path false h₁.unarmed (waitUntilIdle ++ k)
  have h₁₂ := h₁.trans h₂
  obtain ⟨v₃, hwait, h₃⟩ := waitUntilIdle_path hwaits h₁₂.unarmed (h₁₂.steady.kept.env.trans henv)
    ((h₂.replies.trans h₁.replies).trans hrs) k
  rw [qia_of_mode h₁₂.mode] at hwait
  exact ⟨v₃, (hquad.trans hsingle).trans hwait, h₁₂.trans h₃⟩

/-! ### The pattern of R170 -/

/-- Under the oracle any discrete call that reads nothing is steady: what the device makes of it is free (R117). -/
theorem transport_standing_of_oracle (kd : Kind) {tx : List Byte} {n : Nat} (hkd : kd ≠ .arm) (hw : u.window = none)
    (henv : u.env = .oracle) :
    Standing u u.mode u.replies (transport kd d 0 { u with rest := k, tx := tx, count := n }) where
  steady := Steady.of_local.trans (.transport fun href => by simp [henv] at href)
  unarmed := by simp [hkd, hw]
  mode := by simp
  replies := respond_replies_of_no_read d _

/-- An erase command (R86, R110). -/
theorem command_calls_of_oracle (hd : busDescriptor i = some d) (hi : ∀ t, runBus i t = busCommand d t)
    (hw : u.window = none) (henv : u.env = .oracle) (k : List Stmt) :
    ∃ v, Calls (.issue (busCall i [] 0) :: k) u (.cmd d) k v ∧ Standing u u.mode u.replies v := by
  have hn : nextCall (.issue (busCall i [] 0) :: k) u = .call (busCall i [] 0) k u := rfl
  exact ⟨_, calls_of_row hd hn ((hi _).trans (busCommand_next d hw)),
    transport_standing_of_oracle .command (by decide) hw henv⟩

/-- A page program of one byte up to a page (R86, R111). -/
theorem program_calls_of_oracle {a : Addr} {tx : List Byte} (hpos : 1 ≤ tx.length) (hmost : tx.length ≤ Config.pageSize)
    (hw : u.window = none) (henv : u.env = .oracle) (k : List Stmt) :
    ∃ v, Calls (.issue (busCall (.qpp a) tx 0) :: k) u (program a tx) k v ∧ Standing u u.mode u.replies v := by
  have hn : nextCall (.issue (busCall (.qpp a) tx 0) :: k) u = .call (busCall (.qpp a) tx 0) k u := rfl
  exact ⟨_, calls_of_row rfl hn (busWrite_next (addressed opQPP .quad a 0) hw hpos hmost),
    transport_standing_of_oracle .write (by decide) hw henv⟩

/-- "`write_enable(); issue(cmd); wait_until_idle();`" from wherever local computation leads to its write-enable, `u'`
being the state that call is made in (R170). -/
theorem modification_path {c : Call} (hwaits : Waits busy last) (hw : u.window = none) (henv : u.env = .oracle)
    (hrs : u.replies = busy ++ last :: rs)
    (hn : nextCall k u = .call (busCall .wren [] 0) (.issue c :: (waitUntilIdle ++ k')) u')
    (hc : ∀ x, x.window = none → x.env = .oracle →
      ∃ y, Calls (.issue c :: (waitUntilIdle ++ k')) x e (waitUntilIdle ++ k') y ∧ Standing x x.mode x.replies y) :
    ∃ v, Path k u ([writeEnable, e] ++ polls u'.qia (busy ++ [last])) k' v ∧ Standing u' u'.mode rs v := by
  have hsame := nextCall_call_same hn
  have hw' : u'.window = none := hsame.window.trans hw
  have henv' : u'.env = .oracle := hsame.env.trans henv
  have hwren := calls_of_row rfl hn (busCommand_next (opcodeOnly opWREN .single) hw')
  have h₁ := transport_standing_of_oracle (d := opcodeOnly opWREN .single) (k := .issue c :: (waitUntilIdle ++ k'))
    (tx := []) (n := 0) .command (by decide) hw' henv'
  obtain ⟨v₂, hcall, h₂⟩ := hc _ h₁.unarmed (h₁.steady.kept.env.trans henv')
  have h₁₂ := h₁.trans h₂
  obtain ⟨v₃, hwait, h₃⟩ := waitUntilIdle_path hwaits h₁₂.unarmed (h₁₂.steady.kept.env.trans henv')
    ((h₂.replies.trans h₁.replies).trans (hsame.replies.trans hrs)) k'
  rw [qia_of_mode h₁₂.mode] at hwait
  exact ⟨v₃, .call hwren (.call hcall hwait), h₁₂.trans h₃⟩

/-! ### The erases (R173 to R176) -/

/-- An erase operation, whatever its operands (R170, R183). -/
theorem eraseOperation_runs {cmd : Instr} (hl : Launch s (busy ++ last :: rs)) (hwaits : Waits busy last)
    (hi : exec i s = request code o (eraseBody cmd) s) (ho : operandRefusal o s.src = none)
    (hd : busDescriptor cmd = some d) (hcmd : ∀ t, runBus cmd t = busCommand d t) :
    ∃ t, RunsThrough i s ([writeEnable, .cmd d] ++ polls s.qia (busy ++ [last])) t ∧ QuietEnd (.done []) s t ∧
      t.replies = rs := by
  obtain ⟨hready, hr, henv, hrs⟩ := hl
  obtain ⟨v, hp, hv⟩ := modification_path (u := accept code o (eraseBody cmd) s) (k := eraseBody cmd) (k' := [])
    hwaits ((accept_window ..).trans (window_of_ready hready)) ((accept_env ..).trans henv)
    ((accept_replies ..).trans hrs) rfl fun x hw henv => command_calls_of_oracle hd hcmd hw henv _
  rw [qia_of_mode (accept_mode ..)] at hp
  rw [accept_mode] at hv
  exact hp.endsQuietly hv (by simp) hi ho hready hr

/-! ### PAGE_PROGRAM (R177) -/

/-- Items 5 and 6 of R234 refuse no operands of at least one byte below the top. -/
theorem regionRefusal_inside {a : Addr} {n : Nat} (hpos : 1 ≤ n) (htop : a.toNat + n ≤ 2 ^ 24) :
    regionRefusal a n = none := by
  rw [regionRefusal, if_neg (by omega), if_neg (by simp only [Config.addrSpace]; omega)]

theorem crossesPage_of_le {a : Addr} {n : Nat} (h : a.toNat % 8 + n ≤ 8) : crossesPage a n = false :=
  decide_eq_false (not_lt.mpr h)

theorem crossesPage_of_lt {a : Addr} {n : Nat} (h : 8 < a.toNat % 8 + n) : crossesPage a n = true := decide_eq_true h

/-- Taking the free bytes of a payload is steady (R92; log entry 15). -/
theorem Steady.takePayload (off n : Nat) (s : State) : Steady s (takePayload off n s) :=
  ⟨⟨rfl, rfl, rfl, rfl, rfl, rfl⟩, ⟨rfl, rfl, rfl, rfl⟩, rfl, rfl, fun _ _ => rfl⟩

/-- PAGE_PROGRAM inside its page, whatever `Src` holds: it sends the payload (R92, R177). -/
theorem pageProgram_runs {a : Addr} {n : Nat} (hl : Launch s (busy ++ last :: rs)) (hwaits : Waits busy last)
    (hpos : 1 ≤ n) (htop : a.toNat + n ≤ 2 ^ 24) (hpage : a.toNat % 8 + n ≤ 8) :
    ∃ t, RunsThrough (.pageProgram a n) s
        ([writeEnable, program a (payload 0 n s)] ++ polls s.qia (busy ++ [last])) t ∧
      QuietEnd (.done []) s t ∧ t.replies = rs := by
  obtain ⟨hready, hr, henv, hrs⟩ := hl
  have hw := window_of_ready hready
  have hinside := crossesPage_of_le hpage
  have hn : nextCall [.pageProgram a n 0] (accept 0x0E (.srcPage a n) [.pageProgram a n 0] s) =
      .call (busCall .wren [] 0) (.issue (busCall (.qpp a) (payload 0 n s) 0) :: (waitUntilIdle ++ []))
        (takePayload 0 n (accept 0x0E (.srcPage a n) [.pageProgram a n 0] s)) := by
    simp only [nextCall, act, pageProgramAct_inside hinside]
    rfl
  have hlen : (payload 0 n s).length = n := payload_length 0 n s
  obtain ⟨v, hp, hv⟩ := modification_path (u := accept 0x0E (.srcPage a n) [.pageProgram a n 0] s) hwaits hw henv hrs hn
    fun x hw henv => program_calls_of_oracle (hpos.trans hlen.ge)
      (hlen.le.trans (le_pageSize_of_not_crossesPage hinside)) hw henv _
  exact hp.endsQuietly ((Steady.takePayload 0 n _).standing hv) (by simp) rfl (regionRefusal_inside hpos htop) hready hr

/-- PAGE_PROGRAM across a page: the fault, before any transaction (R177, R236, R237). -/
theorem exec_pageProgram_across {a : Addr} {n : Nat} (hs : Ready s) (hpos : 1 ≤ n) (htop : a.toNat + n ≤ 2 ^ 24)
    (hpage : 8 < a.toNat % 8 + n) :
    exec (.pageProgram a n) s =
      .next (raiseFatal .pageBoundary (accept 0x0E (.srcPage a n) [.pageProgram a n 0] s)) := by
  rw [exec_of_accepted (i := .pageProgram a n) rfl hs (regionRefusal_inside hpos htop)]
  simp only [blockStepWith, accept_rest, nextCall, act, pageProgramAct_across (crossesPage_of_lt hpage)]

/-- PAGE_PROGRAM of no byte is refused (R234 item 5). -/
theorem exec_pageProgram_zero (a : Addr) (hs : Ready s) : exec (.pageProgram a 0) s = .refused .zeroLength := by
  obtain ⟨hctl, hmode, -⟩ := hs
  simp [exec, execPageProgram, request, acceptRefusal, hctl, hmode, operandRefusal, regionRefusal]

end

end Sys2Proof.Machine

namespace Sys2Proof.Proofs
open Sys2Proof.Machine Sys2Proof.Claims

/-- Settles O26: the path of the reset sequence, made by a run. -/
theorem resetSequenceRuns : Obligations.ResetSequenceRuns := by
  intro s busy last rs ⟨hready, hr, henv, hrs⟩ hwaits
  have hw := window_of_ready hready
  obtain ⟨v, hp, hv⟩ := resetBody_path (u := accept 0x02 .nothing resetBody s) hwaits hw henv hrs []
  exact hp.endsQuietly hv (by simp [resetEvents]) rfl rfl hready hr

/-- Settles O27: the path of RESET goes on with that of ENABLE_QUAD. -/
theorem initRuns : Obligations.InitRuns := by
  intro s busy last cr sr rs ⟨hready, hr, henv, hrs⟩ hwaits
  have hw := window_of_ready hready
  obtain ⟨v₁, hreset, h₁⟩ := resetBody_path (u := accept 0x01 .nothing (resetBody ++ enableQuadBody) s) hwaits hw henv
    hrs enableQuadBody
  obtain ⟨v₂, hquad, h₂⟩ := enableQuad_path (k := enableQuadBody) (k' := []) h₁.unarmed (h₁.steady.kept.env.trans henv)
    h₁.replies rfl
  rw [h₁.mode] at h₂
  rw [qia_of_mode h₁.mode] at hquad
  exact (hreset.trans hquad).completes (h₁.steady.standing h₂) (by simp [resetEvents]) rfl hready hr

/-- Settles O28: each is the pattern of R170 with its own command. -/
theorem eraseOperationsRun : Obligations.EraseOperationsRun := fun _ a _ _ _ hl hwaits =>
  ⟨eraseOperation_runs (cmd := .se a) (o := .addr a) hl hwaits rfl rfl rfl fun _ => rfl,
    eraseOperation_runs (cmd := .be32 a) (o := .addr a) hl hwaits rfl rfl rfl fun _ => rfl,
    eraseOperation_runs (cmd := .be64 a) (o := .addr a) hl hwaits rfl rfl rfl fun _ => rfl,
    eraseOperation_runs (cmd := .ce) (o := .nothing) hl hwaits rfl rfl rfl fun _ => rfl⟩

/-- Settles O29: refused for no byte, the fault across a page, else the pattern of R170 with the program of the slice of
`Src`, which is the payload where `Src` holds it. -/
theorem pageProgramRuns : Obligations.PageProgramRuns := by
  refine ⟨fun s a hs => exec_pageProgram_zero a hs, fun s a n hs hpos htop hpage => ?_,
    fun s a n busy last rs hl hwaits hpos htop henough hpage => ?_⟩
  · exact ⟨_, exec_pageProgram_across hs hpos htop hpage, rfl, rfl, rfl, rfl⟩
  · have hpayload : payload 0 n s = s.src.take n := payload_of_enough (by omega)
    rw [← hpayload]
    exact pageProgram_runs hl hwaits hpos htop hpage

/-- Settles O54: the same pattern, with a payload that has its `n` bytes and begins with those `Src` holds. -/
theorem pageProgramOfShortSource : Obligations.PageProgramOfShortSource := by
  intro s a n busy last rs hl hwaits htop hshort hpage
  obtain ⟨t, ht⟩ := pageProgram_runs hl hwaits (by omega) htop hpage
  have hsrc : (payload 0 n s).take s.src.length = s.src := by
    rw [payload_take, List.take_of_length_le (by omega)]
  exact ⟨t, payload 0 n s, payload_length 0 n s, hsrc, ht⟩

end Sys2Proof.Proofs

/-! PROOFS. The page chunker and the fault (spec/44_page_chunker.md R207). The pseudocode of every operation but PAGE_PROGRAM
is Sound as it starts, so neither its first step nor, by the invariant, a later one takes the fault; and the first step of
WRITE_REGION is the write-enable of its first chunk, after which the block is Busy. -/
namespace Sys2Proof.Machine
open Sys2Proof.Claims

section
variable {s t : State} {a : Addr} {n : Nat} {src : List Byte}

/-! ### The operands of WRITE_REGION (R205) -/

/-- A region of no byte is refused (R234 item 5). -/
theorem regionRefusal_zero (a : Addr) : regionRefusal a 0 = some .zeroLength := by simp [regionRefusal]

/-- So is a range past the top (R234 item 6). -/
theorem regionRefusal_past (hpos : 1 ≤ n) (htop : 2 ^ 24 < a.toNat + n) : regionRefusal a n = some .pastTop := by
  rw [regionRefusal, if_neg (by omega), if_pos (by simp only [Config.addrSpace]; omega)]

/-- What the range refuses, WRITE_REGION is refused for, whatever `Src` holds (log entry 15). -/
theorem srcRegion_of_region {r : Refusal} (h : regionRefusal a n = some r) :
    operandRefusal (.srcRegion a n) src = some r := by simp [operandRefusal, h]

/-- In a range that is not refused, WRITE_REGION is refused exactly for a `Src` of too few bytes (R205 (c)). -/
theorem srcRegion_inside (hpos : 1 ≤ n) (htop : a.toNat + n ≤ 2 ^ 24) :
    operandRefusal (.srcRegion a n) src = if src.length < n then some .shortSource else none := by
  simp [operandRefusal, regionRefusal_inside hpos htop]

/-- WRITE_REGION that is not refused is of at least one byte (R205 (a)). -/
theorem srcRegion_pos (h : operandRefusal (.srcRegion a n) src = none) : 1 ≤ n := by
  cases hr : regionRefusal a n with
  | none => exact (regionRefusal_none hr).1
  | some r => simp [srcRegion_of_region hr] at h

/-! ### The first step of WRITE_REGION -/

/-- The cursor at `addr`, nothing of `Src` sent (R200). -/
def startRegion (s : State) : State := { s with cursor := s.addr.toNat, remaining := s.len, srcOff := 0 }

theorem act_startChunks (s : State) : act .startChunks s = .skip (startRegion s) := rfl

/-- A step that leads to a call after which another is still to be made leaves the block Busy (R10). -/
theorem blockStep_ctl_of_issue {c c' : Call} {k : List Stmt} {s' : State} (h : blockStepWith runBus s = .next t)
    (hn : nextCall s.rest s = .call c (.issue c' :: k) s') : t.ctl = s.ctl := by
  rcases blockStep_next h with ⟨c₁, k₁, u, i, d, m, hn', -, -, -, rfl⟩ | ⟨u, hn', -⟩ | ⟨u, hn', -⟩
  · rw [hn] at hn'
    cases hn'
    rw [settle_of_call (c := c') (k := k) (s' := transport (kindOf i) d m
      { s' with rest := .issue c' :: k, tx := c.tx, count := c.count }) (by rw [transport_rest]; rfl)]
    simpa using (nextCall_call_same hn).ctl
  · simp [hn] at hn'
  · simp [hn] at hn'

/-- WRITE_REGION that is accepted is Busy after its first step: its first program is still to be sent. -/
theorem exec_writeRegion_busy (h : exec (.writeRegion a n) s = .next t) : t.ctl = .busy := by
  obtain ⟨hacc, hstep⟩ := request_next (code := 0x0F) (o := .srcRegion a n) (body := [.startChunks, .chunkLoop]) h
  obtain ⟨-, -, ho⟩ := acceptRefusal_none hacc
  have hpos := srcRegion_pos ho
  obtain ⟨-, henough⟩ := srcRegion_none ho
  have hn := nextCall_chunkLoop_next
    (s := startRegion (accept 0x0F (.srcRegion a n) [.startChunks, .chunkLoop] s))
    (show n ≠ 0 by omega) (show 0 + n ≤ s.src.length by omega)
  exact blockStep_ctl_of_issue hstep hn

/-! ### The fault -/

/-- A step from a Sound position that answers goes on or ends Idle, whether or not the port is armed. -/
theorem blockStep_ctl_of_sound (hs : SoundAt s.rest s) (h : blockStepWith runBus s = .next t) :
    t.ctl = s.ctl ∨ t.ctl = .idle := by
  rcases blockStep_next h with ⟨c, k, u, i, d, m, hn, -, -, -, rfl⟩ | ⟨u, -, rfl⟩ | ⟨u, hn, -⟩
  · rcases nextCall_sound hs with ⟨_, hn'⟩ | ⟨_, _, _, hn', -, q, hk, hq⟩ <;> rw [hn] at hn' <;> cases hn'
    have hsettle := settle_sound (s := transport (kindOf i) d m { u with rest := k, tx := c.tx, count := c.count })
      ⟨q, by simpa using hk, by simpa [State.qia] using hq⟩
    exact hsettle.imp_left fun hctl => hctl.trans (by simp [(nextCall_call_same hn).ctl])
  · exact .inr rfl
  · rcases nextCall_sound hs with ⟨_, hn'⟩ | ⟨_, _, _, hn', -⟩ <;> simp [hn] at hn'

theorem sound_enableQuadBody (q : Bool) : Sound q enableQuadBody := ⟨.inr rfl, trivial, trivial, trivial⟩

theorem sound_resetBody {q : Bool} {k : List Stmt} (hk : Sound q k) : Sound q (resetBody ++ k) :=
  ⟨ofRow_command rfl, ofRow_command rfl, ofRow_command rfl, ofRow_command rfl, (sound_waitUntilIdle q k).mpr hk⟩

theorem sound_eraseBody {q : Bool} {cmd : Instr} (hc : busKind cmd = some .command) : Sound q (eraseBody cmd) :=
  ⟨ofRow_command rfl, ofRow_command hc, (sound_waitUntilIdle q []).mpr trivial⟩

/-- The pseudocode of every operation but PAGE_PROGRAM is Sound where its operands are accepted. -/
theorem exec_sound_request {i : Instr} {code : BitVec 5} (h : hostCode i = some code) (hi : ∀ a n, i ≠ .pageProgram a n) :
    ∃ o body, (∀ s, exec i s = request code o body s) ∧ ∀ src, operandRefusal o src = none → Sound false body := by
  cases i <;> cases h
  case init => exact ⟨_, _, fun _ => rfl, fun _ _ => sound_resetBody (sound_enableQuadBody false)⟩
  case reset => exact ⟨_, _, fun _ => rfl, fun _ _ => sound_resetBody (k := []) trivial⟩
  case enableQuad => exact ⟨_, _, fun _ => rfl, fun _ _ => sound_enableQuadBody false⟩
  case enterQpi => exact ⟨_, _, fun _ => rfl, fun _ _ => ⟨trivial, trivial⟩⟩
  case enterMemoryMap => exact ⟨_, _, fun _ => rfl, fun _ _ => ⟨trivial, sound_mapTail true⟩⟩
  case readSr1 => exact ⟨_, _, fun _ => rfl, fun _ _ => ⟨.inl rfl, trivial, trivial⟩⟩
  case writeSr1 => exact ⟨_, _, fun _ => rfl, fun _ _ => ⟨.inl rfl, trivial⟩⟩
  case readCr => exact ⟨_, _, fun _ => rfl, fun _ _ => ⟨.inr rfl, trivial, trivial⟩⟩
  case writeCr => exact ⟨_, _, fun _ => rfl, fun _ _ => ⟨.inr (.inl rfl), trivial⟩⟩
  case sectorErase | blockErase32k | blockErase64k | chipErase =>
    exact ⟨_, _, fun _ => rfl, fun _ _ => sound_eraseBody rfl⟩
  case pageProgram a n => exact absurd rfl (hi a n)
  case writeRegion => exact ⟨_, _, fun _ => rfl, fun _ _ => ⟨trivial, trivial, trivial⟩⟩
  case readIdentify => exact ⟨_, _, fun _ => rfl, fun _ _ => ⟨ofRow_busCall rfl trivial, trivial, trivial⟩⟩
  case readRegion a n =>
    exact ⟨_, _, fun _ => rfl, fun _ ho => ⟨ofRow_busCall rfl (regionRefusal_none ho).1, trivial, trivial⟩⟩

/-- An operation other than PAGE_PROGRAM does not halt the block in its first step. -/
theorem exec_not_halted_of_request {i : Instr} {code : BitVec 5} (hcode : hostCode i = some code)
    (hi : ∀ a n, i ≠ .pageProgram a n) (h : exec i s = .next t) : t.ctl ≠ .halted := by
  obtain ⟨o, body, hreq, hbody⟩ := exec_sound_request hcode hi
  obtain ⟨hacc, hstep⟩ := request_next (hreq s ▸ h)
  obtain ⟨-, -, ho⟩ := acceptRefusal_none hacc
  rcases blockStep_ctl_of_sound ⟨false, hbody s.src ho, nofun⟩ hstep with hctl | hctl <;> simp [hctl]

/-- A bus command does not touch the control state. -/
theorem exec_ctl_of_row {i : Instr} {d : Descriptor} (hd : busDescriptor i = some d) (h : exec i s = .next t) :
    t.ctl = s.ctl := by
  obtain ⟨-, d, m, -, rfl⟩ := runBus_next ((runBus_eq_exec hd s).trans h)
  exact transport_ctl _ _ _ _

end

end Sys2Proof.Machine

namespace Sys2Proof.Proofs
open Sys2Proof.Machine Sys2Proof.Safety

/-- Settles O33: the first chunk leaves the block Busy, no position of the invariant faults, and PAGE_PROGRAM is the one
operation whose pseudocode is not Sound as it starts. -/
theorem writeRegionNeverFaults : Obligations.WriteRegionNeverFaults := by
  refine ⟨fun s t a n h => exec_writeRegion_busy h, fun s t hinv hb hstep => ?_, fun s t i hidle h hhalted => ?_⟩
  · cases hr : s.resetPending with
    | true =>
      rw [step_of_resetPending hr] at hstep
      cases hstep
      simp
    | false =>
      obtain ⟨u, hu, hctl⟩ := busyBlockIsNeverStuck s hinv hb hr
      rw [hstep] at hu
      cases hu
      rcases hctl with hctl | hctl <;> simp [hctl]
  · rcases busDescriptor_or_hostCode i with ⟨d, hd⟩ | ⟨code, hcode⟩
    · simp [exec_ctl_of_row hd h, hidle] at hhalted
    · by_contra hne
      exact exec_not_halted_of_request hcode (fun a n hi => hne ⟨a, n, hi⟩) h hhalted

end Sys2Proof.Proofs

/-! PROOFS. The page chunker, whole (spec/44_page_chunker.md R200 to R205). The page programs of WRITE_REGION are a
function of the address and the bytes, `regionChunks`; their number, the chunk law and that they rebuild the bytes are facts
about it. Then the path of one turn of the loop, and by induction over the chunks that of the loop. -/
namespace Sys2Proof.Machine
open Sys2Proof.Claims

/-! ### The chunks of a region (R200 to R204) -/

theorem chunkLength_le (c r : Nat) : chunkLength c r ≤ r := Nat.min_le_right _ _

/-- The page programs that write `bs` from the address `c`: where each starts and the bytes it sends (R200, R201). -/
def regionChunks (c : Nat) (bs : List Byte) : List (Nat × List Byte) :=
  if bs = [] then []
  else
    (c, bs.take (chunkLength c bs.length)) ::
      regionChunks (c + chunkLength c bs.length) (bs.drop (chunkLength c bs.length))
termination_by bs.length
decreasing_by
  have hpos := List.length_pos_of_ne_nil ‹bs ≠ []›
  have := chunkLength_pos (c := c) hpos
  rw [List.length_drop]
  omega

@[simp] theorem regionChunks_nil (c : Nat) : regionChunks c [] = [] := by rw [regionChunks, if_pos rfl]

section
variable {c : Nat} {bs : List Byte}

theorem regionChunks_of_ne_nil (h : bs ≠ []) :
    regionChunks c bs = (c, bs.take (chunkLength c bs.length)) ::
      regionChunks (c + chunkLength c bs.length) (bs.drop (chunkLength c bs.length)) := by
  rw [regionChunks, if_neg h]

theorem length_take_chunk (c : Nat) (bs : List Byte) :
    (bs.take (chunkLength c bs.length)).length = chunkLength c bs.length :=
  List.length_take_of_le (chunkLength_le c bs.length)

/-- The payloads in order are the bytes (R203). -/
theorem regionChunks_flatten (c : Nat) (bs : List Byte) : ((regionChunks c bs).map Prod.snd).flatten = bs := by
  induction c, bs using regionChunks.induct with
  | case1 c => simp
  | case2 c bs hne ih => rw [regionChunks_of_ne_nil hne, List.map_cons, List.flatten_cons, ih, List.take_append_drop]

/-- There are `ceil(((c mod 8) + len) / 8)` of them: each but the last goes to the end of its page (R204). -/
theorem regionChunks_length (h : bs ≠ []) : (regionChunks c bs).length = (c % 8 + bs.length + 7) / 8 := by
  induction c, bs using regionChunks.induct with
  | case1 c => exact absurd rfl h
  | case2 c bs hne ih =>
    have hpos := List.length_pos_of_ne_nil hne
    rw [regionChunks_of_ne_nil hne, List.length_cons]
    by_cases hlast : bs.drop (chunkLength c bs.length) = []
    · have := List.drop_eq_nil_iff.mp hlast
      rw [hlast, regionChunks_nil, List.length_nil]
      simp only [chunkLength, Config.pageSize] at this
      omega
    · have := List.length_pos_of_ne_nil hlast
      rw [ih hlast, List.length_drop]
      simp only [List.length_drop, chunkLength, Config.pageSize] at this ⊢
      omega

/-- Each starts where those before it end, inside the region, and obeys the chunk law there (R201, R203). -/
theorem regionChunks_law (j : Nat) (hj : j < (regionChunks c bs).length) :
    (regionChunks c bs)[j].1 = c + (((regionChunks c bs).take j).map (fun p => p.2.length)).sum ∧
    (regionChunks c bs)[j].1 < c + bs.length ∧
    (regionChunks c bs)[j].2.length =
      chunkLength (regionChunks c bs)[j].1 (c + bs.length - (regionChunks c bs)[j].1) := by
  induction c, bs using regionChunks.induct generalizing j with
  | case1 c => simp at hj
  | case2 c bs hne ih =>
    have hpos := List.length_pos_of_ne_nil hne
    have hle := chunkLength_le c bs.length
    have hrest : c + chunkLength c bs.length + (bs.drop (chunkLength c bs.length)).length = c + bs.length := by
      rw [List.length_drop]
      omega
    simp only [regionChunks_of_ne_nil hne] at hj ⊢
    cases j with
    | zero => simpa [hle] using hpos
    | succ j =>
      have hstart := ih j (by simpa using hj)
      rw [hrest] at hstart
      simpa [hle, Nat.add_assoc] using hstart

end

/-! ### What WRITE_REGION leaves alone -/

section
variable {c : Nat} {bs : List Byte} {k k' body : List Stmt} {s t u u' v w x : State} {e : Event} {es : List Event}
  {busy rs : List Byte} {last : Byte} {i : Instr} {code : BitVec 5} {o : Operands} {r : Refusal}

/-- What no call of WRITE_REGION touches, in either environment: all that is `Steady` but the working registers and the
array; and the port stays unarmed. -/
structure Carries (s t : State) : Prop where
  kept : Kept s t
  mode : t.mode = s.mode
  dst : t.dst = s.dst
  response : t.response = s.response
  unarmed : t.window = none

theorem Carries.trans (h : Carries s u) (h' : Carries u v) : Carries s v :=
  ⟨h.kept.trans h'.kept, h'.mode.trans h.mode, h'.dst.trans h.dst, h'.response.trans h.response, h'.unarmed⟩

theorem Standing.carries (h : Standing s s.mode rs t) : Carries s t :=
  ⟨h.steady.kept, h.mode, h.steady.dst, h.steady.response, h.unarmed⟩

/-! ### The loop of WRITE_REGION (R200) -/

/-- The bytes `bs` of `Src` are still to be written, from the address `c`: the working registers say so (R24, R200). -/
structure ToWrite (c : Nat) (bs : List Byte) (u : State) : Prop where
  cursor : u.cursor = c
  remaining : u.remaining = bs.length
  bytes : srcSlice u.src u.srcOff u.remaining = bs

/-- The chunk is in the working registers (R201). -/
def startChunk (u : State) : State := { u with chunkLen := chunkLength u.cursor u.remaining }

theorem startChunk_carries (hw : u.window = none) : Carries u (startChunk u) :=
  ⟨⟨rfl, rfl, rfl, rfl, rfl, rfl⟩, rfl, rfl, rfl, hw⟩

/-- The three assignments at the end of the loop body (R200). -/
def advanced (u : State) : State :=
  { u with
    cursor := u.cursor + u.chunkLen
    srcOff := u.srcOff + u.chunkLen
    remaining := u.remaining - u.chunkLen }

theorem act_advance (u : State) : act .advance u = .skip (advanced u) := rfl

/-- The start of a slice of `Src` (R92). -/
theorem srcSlice_take {m n : Nat} (src : List Byte) (off : Nat) (h : m ≤ n) :
    (srcSlice src off n).take m = srcSlice src off m := by
  rw [srcSlice, srcSlice, List.take_take, Nat.min_eq_left h]

/-- What follows its start. -/
theorem srcSlice_drop (src : List Byte) (off m n : Nat) :
    (srcSlice src off n).drop m = srcSlice src (off + m) (n - m) := by
  rw [srcSlice, srcSlice, List.drop_take, List.drop_drop]

/-- `Src` holds the bytes that remain. -/
theorem ToWrite.enough (h : ToWrite c bs u) (hne : bs ≠ []) : u.srcOff + u.remaining ≤ u.src.length := by
  have hpos := List.length_pos_of_ne_nil hne
  have hlen := h.remaining.trans (congrArg List.length h.bytes).symm
  rw [srcSlice, List.length_take, List.length_drop] at hlen
  have := h.remaining
  omega

/-- With bytes to write the head of the loop makes the write-enable of the first chunk, whose payload follows (R200). -/
theorem ToWrite.nextCall_chunkLoop (h : ToWrite c bs u) (hne : bs ≠ []) :
    nextCall [.chunkLoop] u = .call (busCall .wren [] 0)
      (.issue (busCall (.qpp (BitVec.ofNat 24 c)) (bs.take (chunkLength c bs.length)) 0) ::
        (waitUntilIdle ++ [.advance, .chunkLoop]))
      (startChunk u) := by
  have hrem : u.remaining ≠ 0 := by
    rw [h.remaining]
    exact (List.length_pos_of_ne_nil hne).ne'
  have hslice := srcSlice_take u.src u.srcOff ((chunkLength_le c bs.length).trans h.remaining.ge)
  rw [h.bytes] at hslice
  rw [nextCall_chunkLoop_next hrem (h.enough hne), hslice, startChunk, h.cursor, h.remaining]

/-- So a path to the end of the loop makes some event. -/
theorem ToWrite.events_ne_nil (h : ToWrite c bs u) (hne : bs ≠ []) (hp : Path [.chunkLoop] u es [] v) : es ≠ [] := by
  rintro rfl
  have hn := hp.nextCall_eq
  rw [h.nextCall_chunkLoop hne] at hn
  cases hn

/-- With no byte to write the loop ends, and the working registers are free (R208). -/
theorem ToWrite.ends (h : ToWrite c [] u) (hw : u.window = none) :
    Path [.chunkLoop] u [] [] (freeWorking u) ∧ Carries u (freeWorking u) :=
  ⟨.skip (act_chunkLoop_done h.remaining) (.refl [] _), ⟨⟨rfl, rfl, rfl, rfl, rfl, rfl⟩, rfl, rfl, rfl, hw⟩⟩

/-- A chunk that has been sent is taken off what is to be written (R200, R203). -/
theorem ToWrite.advance (h : ToWrite c bs u) (hkept : Kept u x) (hchunker : ChunkerKept (startChunk u) x) :
    ToWrite (c + chunkLength c bs.length) (bs.drop (chunkLength c bs.length)) (advanced x) := by
  have hlen : x.chunkLen = chunkLength c bs.length := hchunker.chunkLen.trans (by rw [startChunk, h.cursor, h.remaining])
  have hcursor : x.cursor = c := hchunker.cursor.trans h.cursor
  have hremaining : x.remaining = bs.length := hchunker.remaining.trans h.remaining
  have hoff : x.srcOff = u.srcOff := hchunker.srcOff
  have hbytes := h.bytes
  rw [h.remaining] at hbytes
  refine ⟨?_, ?_, ?_⟩
  · rw [advanced, hcursor, hlen]
  · rw [advanced, hremaining, hlen, List.length_drop]
  · calc srcSlice x.src (x.srcOff + x.chunkLen) (x.remaining - x.chunkLen)
      _ = srcSlice u.src (u.srcOff + chunkLength c bs.length) (bs.length - chunkLength c bs.length) := by
        rw [hkept.src, hoff, hremaining, hlen]
      _ = bs.drop (chunkLength c bs.length) := by rw [← srcSlice_drop, hbytes]

/-- A path that sends a chunk from the head of the loop goes on to the next one. -/
theorem ToWrite.next (h : ToWrite c bs u) (hp : Path [.chunkLoop] u es [.advance, .chunkLoop] x) (hx : Carries u x)
    (hchunker : ChunkerKept (startChunk u) x) :
    Path [.chunkLoop] u es [.chunkLoop] (advanced x) ∧ Carries u (advanced x) ∧
    ToWrite (c + chunkLength c bs.length) (bs.drop (chunkLength c bs.length)) (advanced x) := by
  refine ⟨?_, hx.trans ⟨⟨rfl, rfl, rfl, rfl, rfl, rfl⟩, rfl, rfl, rfl, hx.unarmed⟩, h.advance hx.kept hchunker⟩
  simpa using hp.trans (.skip (act_advance x) (.refl [.chunkLoop] _))

/-! ### Under the oracle -/

/-- The events of a chunk and of the polls after it (R177, R200). -/
def chunkEvents (q : Bool) (cw : (Nat × List Byte) × (List Byte × Byte)) : List Event :=
  [writeEnable, program (BitVec.ofNat 24 cw.1.1) cw.1.2] ++ polls q (cw.2.1 ++ [cw.2.2])

/-- One turn of the loop is the pattern of R170 with the program of its chunk. -/
theorem chunk_path_of_oracle (h : ToWrite c bs u) (hne : bs ≠ []) (hwaits : Waits busy last) (hw : u.window = none)
    (henv : u.env = .oracle) (hrs : u.replies = busy ++ last :: rs) :
    ∃ v, Path [.chunkLoop] u (chunkEvents u.qia ((c, bs.take (chunkLength c bs.length)), (busy, last))) [.chunkLoop] v ∧
      Carries u v ∧ ToWrite (c + chunkLength c bs.length) (bs.drop (chunkLength c bs.length)) v ∧ v.replies = rs := by
  have hlen := length_take_chunk c bs
  have hpos := chunkLength_pos (c := c) (List.length_pos_of_ne_nil hne)
  obtain ⟨x, hp, hx⟩ := modification_path hwaits hw henv hrs (h.nextCall_chunkLoop hne) fun y hw henv =>
    program_calls_of_oracle (hpos.trans hlen.ge) (hlen.le.trans (chunkLength_le_pageSize c bs.length)) hw henv _
  obtain ⟨hnext, hcarries, hto⟩ := h.next hp ((startChunk_carries hw).trans hx.carries) hx.steady.chunker
  exact ⟨advanced x, hnext, hcarries, hto, hx.replies⟩

/-- The loop makes the events of every chunk, however many polls follow each. -/
theorem region_path_of_oracle {waits : List (List Byte × Byte)} (h : ToWrite c bs u) (hw : u.window = none)
    (henv : u.env = .oracle) (hrs : u.replies = (waits.map (fun w => w.1 ++ [w.2])).flatten ++ rs)
    (hwaits : ∀ w ∈ waits, Waits w.1 w.2) (hlen : waits.length = (regionChunks c bs).length) :
    ∃ v, Path [.chunkLoop] u (((regionChunks c bs).zip waits).flatMap (chunkEvents u.qia)) [] v ∧ Carries u v ∧
      v.replies = rs := by
  induction c, bs using regionChunks.induct generalizing u waits with
  | case1 c =>
    obtain rfl : waits = [] := by simpa using hlen
    obtain ⟨hp, hcarries⟩ := h.ends hw
    exact ⟨freeWorking u, by simpa using hp, hcarries, by simpa using hrs⟩
  | case2 c bs hne ih =>
    rw [regionChunks_of_ne_nil hne, List.length_cons] at hlen
    obtain ⟨⟨busy, last⟩, waits, rfl⟩ := List.exists_cons_of_length_eq_add_one hlen
    obtain ⟨hwait, hwaits⟩ := List.forall_mem_cons.mp hwaits
    obtain ⟨v, hp, hv, hto, hvrs⟩ := chunk_path_of_oracle h hne hwait hw henv
      (rs := (waits.map (fun w => w.1 ++ [w.2])).flatten ++ rs) (by simpa using hrs)
    obtain ⟨w, hp', hw', hwrs⟩ := ih hto hv.unarmed (hv.kept.env.trans henv) hvrs hwaits (by simpa using hlen)
    rw [qia_of_mode hv.mode] at hp'
    refine ⟨w, ?_, hv.trans hw', hwrs⟩
    rw [regionChunks_of_ne_nil hne, List.zip_cons_cons, List.flatMap_cons]
    exact hp.trans hp'

/-! ### From the request to the end -/

/-- A block that is Ready refuses a request for its operands (R234). -/
theorem exec_of_refused (hi : exec i s = request code o body s) (hs : Ready s) (ho : operandRefusal o s.src = some r) :
    exec i s = .refused r := by
  obtain ⟨hctl, hmode, -⟩ := hs
  simp [hi, request, acceptRefusal, hctl, hmode, ho]

/-- An operation whose operands are accepted makes the calls of its path, the first with its acceptance (R10). -/
theorem Path.runsThrough_of_accepted (h : Path body (accept code o body s) es [] v) (hes : es ≠ [])
    (hi : exec i s = request code o body s) (ho : operandRefusal o s.src = none) (hs : Ready s)
    (hr : s.resetPending = false) : RunsThrough i s es (finish v) := by
  have htrace : (finish v).trace = s.trace ++ es := by simpa using h.trace_eq
  obtain ⟨e, es, rfl⟩ := List.exists_cons_of_ne_nil hes
  obtain ⟨k₁, w, hc, hp⟩ := h.head
  obtain ⟨rfl, hctl, hreset, -⟩ := hc.leaves
  exact ⟨settle w, (exec_of_accepted hi hs ho).trans hc.blockStep, hp.runsTo hctl (by simpa [hr] using hreset), htrace⟩

/-- `Src` has its first `n` bytes, and there are some. -/
theorem take_src_of_enough {n : Nat} (hpos : 1 ≤ n) (henough : n ≤ s.src.length) :
    (s.src.take n).length = n ∧ s.src.take n ≠ [] := by
  have hlen : (s.src.take n).length = n := List.length_take_of_le henough
  exact ⟨hlen, List.ne_nil_of_length_pos (by omega)⟩

/-- WRITE_REGION, accepted, with its working registers set (R200, R234). -/
def launchRegion (a : Addr) (n : Nat) (s : State) : State :=
  startRegion (accept 0x0F (.srcRegion a n) [.startChunks, .chunkLoop] s)

/-- The bytes to write are then the first `n` of `Src`, from `a`. -/
theorem launchRegion_toWrite {a : Addr} {n : Nat} (h : n ≤ s.src.length) :
    ToWrite a.toNat (s.src.take n) (launchRegion a n s) :=
  ⟨rfl, (List.length_take_of_le h).symm, rfl⟩

theorem launchRegion_kept (a : Addr) (n : Nat) (s : State) : Kept s (launchRegion a n s) :=
  ⟨rfl, rfl, rfl, rfl, rfl, rfl⟩

theorem launchRegion_window (a : Addr) (n : Nat) (s : State) : (launchRegion a n s).window = s.window := rfl

/-- A path of the loop, from there to the end, is a run of WRITE_REGION, which has ended. -/
theorem Path.runsRegion {a : Addr} {n : Nat} (h : Path [.chunkLoop] (launchRegion a n s) es [] v)
    (hv : Carries (launchRegion a n s) v) (hs : Ready s) (hr : s.resetPending = false) (hpos : 1 ≤ n)
    (htop : a.toNat + n ≤ 2 ^ 24) (henough : n ≤ s.src.length) :
    RunsThrough (.writeRegion a n) s es (finish v) ∧ Ended (.done []) s (finish v) := by
  obtain ⟨-, hne⟩ := take_src_of_enough hpos henough
  have hes := (launchRegion_toWrite (a := a) henough).events_ne_nil hne h
  have ho : operandRefusal (.srcRegion a n) s.src = none := by
    rw [srcRegion_inside hpos htop, if_neg (by omega)]
  have hp : Path [.startChunks, .chunkLoop] (accept 0x0F (.srcRegion a n) [.startChunks, .chunkLoop] s) es [] v :=
    .skip (act_startChunks _) h
  obtain ⟨htx, hcount⟩ := hp.port_of_ne_nil hes
  have hkept : Kept s v := (launchRegion_kept a n s).trans hv.kept
  have hresponse : (finish v).response = .done [] := by rw [finish_response, hv.response]; rfl
  exact ⟨hp.runsThrough_of_accepted hes rfl ho hs hr, hkept.trans (finish_kept v), rfl, rfl, rfl, htx, hcount, hresponse⟩

end

end Sys2Proof.Machine

namespace Sys2Proof.Proofs
open Sys2Proof.Machine Sys2Proof.Claims

/-- Settles O32: the refusals by the operands in their order; else the calls are the chunks of `Src[0 .. n]`, and the loop
makes the events of each. -/
theorem writeRegionRuns : Obligations.WriteRegionRuns := by
  refine ⟨fun s a n hs => ⟨?_, fun hpos htop => ?_, fun hpos htop hshort => ?_⟩,
    fun s a n waits rs ⟨hs, hr, henv, hrs⟩ hwaits hpos htop henough hlen => ?_⟩
  · rintro rfl
    exact exec_of_refused rfl hs (srcRegion_of_region (regionRefusal_zero a))
  · exact exec_of_refused rfl hs (srcRegion_of_region (regionRefusal_past hpos htop))
  · exact exec_of_refused rfl hs ((srcRegion_inside hpos htop).trans (if_pos hshort))
  obtain ⟨hbytes, hne⟩ := take_src_of_enough hpos henough
  have hcalls : (regionChunks a.toNat (s.src.take n)).length = waits.length := by
    rw [regionChunks_length hne, hbytes, hlen]
  have hw := (launchRegion_window a n s).trans (window_of_ready hs)
  obtain ⟨v, hp, hv, hvrs⟩ := region_path_of_oracle (launchRegion_toWrite henough) hw henv hrs hwaits hcalls.symm
  obtain ⟨hruns, hended⟩ := hp.runsRegion hv hs hr hpos htop henough
  refine ⟨regionChunks a.toNat (s.src.take n), finish v, hcalls, regionChunks_flatten _ _, fun j hj => ?_, hruns, hended,
    hv.mode, hv.unarmed, hv.dst, hvrs⟩
  obtain ⟨hstart, hinside, hlaw⟩ := regionChunks_law j hj
  rw [hbytes] at hinside hlaw
  simp only [chunkLength, Config.pageSize] at hlaw
  exact ⟨hstart, hlaw, by omega, by omega⟩

end Sys2Proof.Proofs

/-! PROOFS. The page chunker on the reference device (spec/44_page_chunker.md, spec/92_eei_decisions.md RefFlash). What a
stretch of a run stores in the array is said by `Stores`, and one stretch after another stores the bytes of both. The
busy-wait on the reference device makes as many polls as the device is busy for, and one more; so a chunk stores its payload
in `B_prog + 3` calls, and the loop, chunk after chunk, stores `Src`. -/
namespace Sys2Proof.Claims
open Sys2Proof.Machine

theorem ChunkerKept.trans {s t u : State} (h : ChunkerKept s t) (h' : ChunkerKept t u) : ChunkerKept s u :=
  ⟨h'.cursor.trans h.cursor, h'.remaining.trans h.remaining, h'.srcOff.trans h.srcOff, h'.chunkLen.trans h.chunkLen⟩

end Sys2Proof.Claims

namespace Sys2Proof.Machine
open Sys2Proof.Claims

section
variable {a c n : Nat} {bs bs' : List Byte} {k k' : List Stmt} {s t u u' v : State}

/-! ### What a stretch of a run stores (R58) -/

/-- From `s` to `t` the bytes `bs` have been stored from the address `a`, where the array was erased, and every other byte of
it is as it was. -/
structure Stores (a : Nat) (bs : List Byte) (s t : State) : Prop where
  params : t.params = s.params
  wf : Memory.wf t.params t.device.flash
  inside : ∀ (i : Nat) (hi : i < bs.length), a + i < flashBytes s.params → flashAt s (a + i) = s.params.erasedByte →
    flashAt t (a + i) = bs[i]
  outside : ∀ b, b < a ∨ a + bs.length ≤ b → flashAt t b = flashAt s b

/-- A stretch that leaves the array alone stores nothing. -/
theorem Stores.of_flash_eq (hwf : Memory.wf s.params s.device.flash) (hp : t.params = s.params)
    (hf : t.device.flash = s.device.flash) : Stores a [] s t where
  params := hp
  wf := by rwa [hp, hf]
  inside _ hi := absurd hi (Nat.not_lt_zero _)
  outside b _ := by rw [flashAt, flashAt, hp, hf]

/-- Two stretches store the bytes of both, one after the other. -/
theorem Stores.append (h : Stores a bs s t) (h' : Stores (a + bs.length) bs' t u) : Stores a (bs ++ bs') s u where
  params := h'.params.trans h.params
  wf := h'.wf
  inside i hi hin he := by
    by_cases hfirst : i < bs.length
    · rw [h'.outside _ (.inl (by omega)), h.inside i hfirst hin he, List.getElem_append_left hfirst]
    · have haddr : a + i = a + bs.length + (i - bs.length) := by omega
      have he' : flashAt t (a + i) = t.params.erasedByte := by rw [h.outside _ (.inr (by omega)), he, h.params]
      rw [List.getElem_append_right (by omega), haddr]
      rw [List.length_append] at hi
      exact h'.inside (i - bs.length) (by omega) (by rwa [← haddr, h.params]) (haddr ▸ he')
  outside b hb := by
    rw [List.length_append] at hb
    rw [h'.outside b (by omega), h.outside b (by omega)]

/-- What follows the stores and leaves the array alone stores nothing more. -/
theorem Stores.to_flash_eq (h : Stores a bs s t) (hp : u.params = t.params) (hf : u.device.flash = t.device.flash) :
    Stores a bs s u := by simpa using h.append (.of_flash_eq h.wf hp hf)

/-- What precedes them and leaves it alone stores nothing either. -/
theorem Stores.from_flash_eq (h : Stores a bs t u) (hp : t.params = s.params) (hf : t.device.flash = s.device.flash)
    (hwf : Memory.wf s.params s.device.flash) : Stores a bs s u :=
  Stores.append (bs := []) (.of_flash_eq hwf hp hf) h

/-- A program of some bytes stores them (R58, R72). -/
theorem programBytes_stores (hwf : Memory.wf s.params s.device.flash) (a : Nat) (bs : List Byte) :
    Stores a bs s (programBytes a bs s) where
  params := programBytes_params a bs s
  wf := by
    rw [programBytes_params]
    exact programBytes_wf a bs hwf
  inside _ hi hin he := programBytes_flashAt_inside hwf hi hin he
  outside _ hb := programBytes_flashAt_outside hwf hb

/-! ### The calls of a chunk on the reference device -/

/-- The write-enable leaves the device alone. -/
theorem writeEnable_calls_of_refFlash (hw : u'.window = none) (henv : u'.env = .refFlash)
    (hn : nextCall k u = .call (busCall .wren [] 0) k' u') :
    ∃ v, Calls k u writeEnable k' v ∧ Standing u' u'.mode u'.replies v ∧ v.device = u'.device := by
  refine ⟨_, calls_of_row rfl hn (busCommand_next (opcodeOnly opWREN .single) hw),
    transport_standing .command (by decide) hw fun _ _ => rfl, ?_⟩
  simp only [transport_device, respond, henv]
  rfl

/-- What the program command makes of the reference device, by its effect. -/
theorem transport_program_device (henv : s.env = .refFlash) (a : Addr) :
    (transport .write (addressed opQPP .quad a 0) 0 s).device =
      { s.device with flash := (programBytes a.toNat s.tx s).device.flash, busy := s.params.bProg } := by
  simp only [transport_device, respond, henv]
  exact refEffect_qpp_device a s.tx s

/-- A discrete call, whatever it does to the device, carries the block along and leaves the working registers. -/
theorem transport_carries {kd : Kind} {d : Descriptor} {m : Nat} (hkd : kd ≠ .arm) (hw : u.window = none) :
    Carries u (transport kd d n { u with rest := k, tx := bs, count := m }) ∧
    ChunkerKept u (transport kd d n { u with rest := k, tx := bs, count := m }) := by
  refine ⟨⟨?_, by simp, by simp, by simp, by simp [hkd, hw]⟩, ?_⟩ <;> constructor <;> simp

/-- The program command stores its payload and keeps the device busy for `B_prog` polls. -/
theorem program_calls_of_refFlash {a : Addr} (hpos : 1 ≤ bs.length) (hmost : bs.length ≤ Config.pageSize)
    (hw : u.window = none) (henv : u.env = .refFlash) (hwf : Memory.wf u.params u.device.flash) (k : List Stmt) :
    ∃ v, Calls (.issue (busCall (.qpp a) bs 0) :: k) u (program a bs) k v ∧ Carries u v ∧ ChunkerKept u v ∧
      Stores a.toNat bs u v ∧ v.device.busy = u.params.bProg := by
  have hn : nextCall (.issue (busCall (.qpp a) bs 0) :: k) u = .call (busCall (.qpp a) bs 0) k u := rfl
  have hdevice := transport_program_device (s := { u with rest := k, tx := bs, count := 0 }) henv a
  have hstores := programBytes_stores (s := { u with rest := k, tx := bs, count := 0 }) hwf a.toNat bs
  obtain ⟨hcarries, hchunker⟩ := transport_carries (u := u) (kd := .write) (by decide) hw
  refine ⟨_, calls_of_row rfl hn (busWrite_next (addressed opQPP .quad a 0) hw hpos hmost), hcarries, hchunker,
    .from_flash_eq (hstores.to_flash_eq ?_ ?_) rfl rfl hwf, by rw [hdevice]⟩
  · rw [transport_params, programBytes_params]
  · rw [hdevice]

/-- The status byte shows whether the device is busy (RefFlash table). -/
theorem wipSet_refStatus (d : Device) : wipSet (refStatus d) = decide (0 < d.busy) := by
  have hbit : ∀ b : Byte, wipSet (b &&& 0xFE ||| 1) = true ∧ wipSet (b &&& 0xFE ||| 0) = false := by decide
  by_cases h : 0 < d.busy
  · rw [refStatus, if_pos h, (hbit d.sr1).1, decide_eq_true h]
  · rw [refStatus, if_neg h, (hbit d.sr1).2, decide_eq_false h]

/-- A poll reads that byte and counts the busy polls down (RefFlash table). -/
theorem transport_poll (henv : s.env = .refFlash) (q : Bool) :
    (transport .read (registerAccess opRDSR1 (widthOfBit q)) 1 s).rx = [refStatus s.device] ∧
    (transport .read (registerAccess opRDSR1 (widthOfBit q)) 1 s).device =
      { s.device with busy := s.device.busy - 1 } := by
  rw [transport_rx, if_pos rfl, transport_device, respond_read henv (Nat.le_refl 1)]
  exact ⟨rfl, rfl⟩

/-- READ_REGISTER of SR1 on the reference device reads its status and counts it down. -/
theorem poll_calls_of_refFlash (hw : u.window = none) (henv : u.env = .refFlash)
    (hn : nextCall k u = .call (registerCall opRDSR1 [] u) k' u) :
    ∃ e v, Calls k u e k' v ∧ v.rx = [refStatus u.device] ∧
      Standing u u.mode v.replies v ∧ v.device = { u.device with busy := u.device.busy - 1 } := by
  rw [registerCall_rdsr1] at hn
  have hflash := transport_read_sameFlash .read (d := registerAccess opRDSR1 (widthOfBit u.qia))
    (s := { u with rest := k', tx := [], count := 0 }) (Nat.le_refl 1) fun _ => rfl
  obtain ⟨hrx, hdevice⟩ := transport_poll (s := { u with rest := k', tx := [], count := 0 }) henv u.qia
  exact ⟨_, _, calls_of_row rfl hn (busRead_next _ hw (Nat.le_refl 1)), hrx,
    ⟨Steady.of_local.trans (.transport hflash), by simp [hw], by simp, rfl⟩, hdevice⟩

/-- WAIT_UNTIL_IDLE on the reference device polls as often as the device is busy for, and once more (R172). -/
theorem waitUntilIdle_path_of_refFlash (hw : u.window = none) (henv : u.env = .refFlash) (k : List Stmt) :
    ∃ es v, Path (waitUntilIdle ++ k) u es k v ∧ es.length = u.device.busy + 1 ∧ Standing u u.mode v.replies v ∧
      v.device.flash = u.device.flash := by
  generalize hbusy : u.device.busy = n
  induction n generalizing u with
  | zero =>
    obtain ⟨e, v, hpoll, hrx, hv, hdevice⟩ := poll_calls_of_refFlash (k := waitUntilIdle ++ k) (k' := .testWip :: k)
      hw henv rfl
    have hclear : wipSet (firstByte v.rx) = false := by
      rw [hrx, firstByte, List.headD_cons, wipSet_refStatus, hbusy, decide_eq_false (Nat.lt_irrefl 0)]
    exact ⟨[e], _, .call hpoll (.skip (act_testWip_clear hclear) (.refl k _)), rfl,
      ⟨hv.steady.trans .of_local, hv.unarmed, hv.mode, rfl⟩, by rw [hdevice]⟩
  | succ n ih =>
    obtain ⟨e, v, hpoll, hrx, hv, hdevice⟩ := poll_calls_of_refFlash (k := waitUntilIdle ++ k) (k' := .testWip :: k)
      hw henv rfl
    have hset : wipSet (firstByte v.rx) = true := by
      rw [hrx, firstByte, List.headD_cons, wipSet_refStatus, hbusy, decide_eq_true (Nat.succ_pos n)]
    obtain ⟨es, w, hp, hlen, hw', hflash⟩ := ih (u := { v with rx := [] }) hv.unarmed (hv.steady.kept.env.trans henv)
      (by simp only [hdevice, hbusy, Nat.add_sub_cancel])
    have hagain := hp.of_nextCall_eq (List.ne_nil_of_length_eq_add_one hlen) (nextCall_testWip_of_set hset k) rfl
    refine ⟨e :: es, w, .call hpoll hagain, by rw [List.length_cons, hlen], ?_, hflash.trans (by rw [hdevice])⟩
    exact hv.steady.standing (Steady.of_local.standing (hv.mode ▸ hw'))

/-- One turn of the loop stores its chunk, in a write-enable, a program and `B_prog + 1` polls. -/
theorem chunk_path_of_refFlash (h : ToWrite c bs u) (hne : bs ≠ []) (htop : c + bs.length ≤ 2 ^ 24)
    (hw : u.window = none) (henv : u.env = .refFlash) (hwf : Memory.wf u.params u.device.flash) :
    ∃ es v, Path [.chunkLoop] u es [.chunkLoop] v ∧ es.length = u.params.bProg + 3 ∧ Carries u v ∧
      ToWrite (c + chunkLength c bs.length) (bs.drop (chunkLength c bs.length)) v ∧
      Stores c (bs.take (chunkLength c bs.length)) u v := by
  have hlen := length_take_chunk c bs
  have hbytes := List.length_pos_of_ne_nil hne
  have hpos := chunkLength_pos (c := c) hbytes
  have haddr : (BitVec.ofNat 24 c).toNat = c := BitVec.toNat_ofNat .. ▸ Nat.mod_eq_of_lt (by omega)
  obtain ⟨v₁, hwren, h₁, hdevice₁⟩ := writeEnable_calls_of_refFlash (u' := startChunk u) hw henv
    (h.nextCall_chunkLoop hne)
  have hwf₁ : Memory.wf v₁.params v₁.device.flash := by
    rw [h₁.steady.kept.params, hdevice₁]
    exact hwf
  obtain ⟨v₂, hprogram, h₂, hchunker₂, hstores, hbusy⟩ := program_calls_of_refFlash (a := BitVec.ofNat 24 c)
    (hpos.trans hlen.ge) (hlen.le.trans (chunkLength_le_pageSize c bs.length)) h₁.unarmed
    (h₁.steady.kept.env.trans henv) hwf₁ (waitUntilIdle ++ [.advance, .chunkLoop])
  obtain ⟨es, v₃, hwait, hcount, h₃, hflash₃⟩ := waitUntilIdle_path_of_refFlash h₂.unarmed
    (h₂.kept.env.trans (h₁.steady.kept.env.trans henv)) [.advance, .chunkLoop]
  rw [haddr] at hstores
  obtain ⟨hnext, hcarries, hto⟩ := h.next (.call hwren (.call hprogram hwait))
    ((startChunk_carries hw).trans (h₁.carries.trans (h₂.trans h₃.carries)))
    (h₁.steady.chunker.trans (hchunker₂.trans h₃.steady.chunker))
  have hall : Stores c (bs.take (chunkLength c bs.length)) u v₃ :=
    (hstores.to_flash_eq h₃.steady.kept.params hflash₃).from_flash_eq h₁.steady.kept.params
      (congrArg Device.flash hdevice₁) hwf
  refine ⟨_, advanced v₃, hnext, ?_, hcarries, hto, hall.to_flash_eq rfl rfl⟩
  rw [List.length_cons, List.length_cons, hcount, hbusy, h₁.steady.kept.params]
  rfl

/-- The loop stores the bytes, chunk after chunk (R203). -/
theorem region_path_of_refFlash (h : ToWrite c bs u) (htop : c + bs.length ≤ 2 ^ 24) (hw : u.window = none)
    (henv : u.env = .refFlash) (hwf : Memory.wf u.params u.device.flash) :
    ∃ es v, Path [.chunkLoop] u es [] v ∧ es.length = (regionChunks c bs).length * (u.params.bProg + 3) ∧
      Carries u v ∧ Stores c bs u v := by
  induction c, bs using regionChunks.induct generalizing u with
  | case1 c =>
    obtain ⟨hp, hcarries⟩ := h.ends hw
    exact ⟨[], freeWorking u, hp, by simp, hcarries, .of_flash_eq hwf rfl rfl⟩
  | case2 c bs hne ih =>
    obtain ⟨es, v, hp, hlen, hv, hto, hstores⟩ := chunk_path_of_refFlash h hne htop hw henv hwf
    have hle := chunkLength_le c bs.length
    obtain ⟨es', w, hp', hlen', hw', hstores'⟩ := ih hto (by rw [List.length_drop]; omega) hv.unarmed
      (hv.kept.env.trans henv) hstores.wf
    have hall := hstores.append (bs' := bs.drop (chunkLength c bs.length)) (by rwa [length_take_chunk])
    rw [List.take_append_drop] at hall
    refine ⟨es ++ es', w, hp.trans hp', ?_, hv.trans hw', hall⟩
    rw [List.length_append, hlen, hlen', hv.kept.params, regionChunks_of_ne_nil hne, List.length_cons, Nat.succ_mul,
      Nat.add_comm]

end

end Sys2Proof.Machine

namespace Sys2Proof.Proofs
open Sys2Proof.Machine Sys2Proof.Claims

/-- Settles O34: the loop stores `Src[0 .. n]` from `a`, in `B_prog + 3` calls for each chunk. -/
theorem writeRegionStoresSource : Obligations.WriteRegionStoresSource := by
  intro s a n hs hr henv hwf hpos hin henough herased
  have htop : a.toNat + n ≤ 2 ^ 24 := hin.trans (Nat.min_le_right _ _)
  obtain ⟨hbytes, hne⟩ := take_src_of_enough hpos henough
  have hw := (launchRegion_window a n s).trans (window_of_ready hs)
  obtain ⟨es, v, hp, hlen, hv, hstores⟩ := region_path_of_refFlash (launchRegion_toWrite henough)
    (by rwa [hbytes]) hw henv hwf
  rw [regionChunks_length hne, hbytes] at hlen
  have hcount : es.length = (a.toNat % 8 + n + 7) / 8 * (s.params.bProg + 3) := hlen
  obtain ⟨⟨u, hu, hrun, -⟩, hended⟩ := hp.runsRegion hv hs hr hpos htop henough
  rw [hcount] at hrun
  refine ⟨u, finish v, hu, hrun, hended.ctl, hended.response, fun i hi => ?_, fun b hb => ?_⟩
  · have hstored := hstores.inside i (by omega) (show a.toNat + i < flashBytes s.params by omega)
      (herased _ (by omega) (by omega))
    have hsrc : s.src[i]? = some (s.src.take n)[i] := by rw [← List.getElem?_eq_getElem, List.getElem?_take_of_lt hi]
    rw [hsrc, ← hstored]
    rfl
  · exact hstores.outside b (by rwa [hbytes])

end Sys2Proof.Proofs

/-! PROOFS. Identification and region read (spec/45_read_identify.md). Each operation is one read at widths of its own, in
every mode; what follows it is local: the bytes go to the host, or into `Dst`. Then where a load through the window stops. -/
namespace Sys2Proof.Machine
open Sys2Proof.Claims

section
variable {k : List Stmt} {s u : State} {i : Instr} {d : Descriptor} {n m : Nat} {a : Addr}

/-! ### The two operations of one read (R215, R216) -/

/-- A read command issued on an unarmed port makes its event and delivers the bytes the environment returned (R112). -/
theorem readCommand_calls (hd : busDescriptor i = some d) (hi : ∀ t, t.count = m → runBus i t = busRead d n t)
    (href : ∀ t, (refReply d n t).1.length = n) (hflash : ∀ tx t, (refEffect d tx t).device.flash = t.device.flash)
    (hn : 1 ≤ n) (hw : u.window = none) :
    ∃ bs v, Calls (.issue (busCall i [] m) :: k) u (.rd d n bs) k v ∧ v.rx = bs ∧ Reply n u v bs ∧
      Standing u u.mode v.replies v := by
  have hnext : nextCall (.issue (busCall i [] m) :: k) u = .call (busCall i [] m) k u := rfl
  have hrun := (hi { u with rest := k, tx := [], count := m } rfl).trans (busRead_next d hw hn)
  refine ⟨_, _, calls_of_row hd hnext hrun, by simp, transport_reply .read hn (href _), ?_, by simp [hw], by simp, rfl⟩
  exact Steady.of_local.trans (.transport (transport_read_sameFlash .read hn (hflash _)))

/-- READ_IDENTIFY: the bytes RDID returned go to the host (R215, R220). -/
theorem readIdentify_completes (hs : Ready s) :
    ∃ t bs, exec .readIdentify s = .next t ∧ Reply 3 s t bs ∧ t.trace = s.trace ++ [.rd identifyRead 3 bs] ∧
      QuietEnd (.done bs) s t ∧ SameFlash s t := by
  have hw := window_of_ready hs
  obtain ⟨bs, v, hread, hrx, hreply, hv⟩ := readCommand_calls (i := .rdid) (d := identifyRead) (n := 3) (m := 0)
    (u := accept 0x10 .nothing [.issue (busCall .rdid [] 0), .returnBytes] s) (k := [.returnBytes])
    rfl (fun _ _ => rfl) (fun _ => rfl) (fun _ _ => rfl) (by decide) hw
  obtain ⟨t, ht⟩ := hread.returnsBytes (i := .readIdentify) hrx hreply hv rfl hs
  exact ⟨t, bs, ht⟩

/-- What a quiet end says of all but `Dst` holds whatever is stored there. -/
theorem ended_storeDst_of_quietEnd {r : Response} (h : QuietEnd r s (finish u)) (dst : List Byte) :
    Ended r s (finish { u with dst := dst }) ∧ ChunkerKept s (finish { u with dst := dst }) := by
  obtain ⟨⟨hkept, -, -, -, htx, hcount, hresponse⟩, ⟨hcursor, hremaining, hoff, hlen⟩, -⟩ := h
  exact ⟨⟨hkept.trans ⟨rfl, rfl, rfl, rfl, rfl, rfl⟩, rfl, rfl, rfl, htx, hcount, hresponse⟩,
    hcursor, hremaining, hoff, hlen⟩

/-- READ_REGION of a range it accepts: one read of all its bytes, which are then stored in `Dst` (R216, R218). -/
theorem readRegion_completes (hs : Ready s) (hpos : 1 ≤ n) (htop : a.toNat + n ≤ 2 ^ 24) :
    ∃ t bs, exec (.readRegion a n) s = .next t ∧ Reply n s t bs ∧ t.trace = s.trace ++ [.rd (regionRead a) n bs] ∧
      Ended (.done []) s t ∧ ChunkerKept s t ∧ t.mode = s.mode ∧ t.window = s.window ∧ SameFlash s t ∧
      t.dst = writeDst s.dst bs := by
  have hw := window_of_ready hs
  obtain ⟨bs, v, hread, hrx, hreply, hv⟩ := readCommand_calls (i := .qread a) (d := regionRead a) (n := n) (m := n)
    (u := accept 0x11 (.dstRegion a n) [.issue (busCall (.qread a) [] n), .storeDst] s) (k := [.storeDst])
    rfl (fun _ hcount => hcount ▸ rfl) (refReply_qread_length a n) (fun _ _ => rfl) hpos hw
  have hend : nextCall [.storeDst] v = .ended { v with dst := writeDst v.dst bs, rx := [] } := by rw [← hrx]; rfl
  obtain ⟨-, -, -, hport⟩ := hread.leaves
  have hdone : doneResponse v.response = .done [] := by rw [hv.steady.response]; rfl
  have hquiet : QuietEnd (doneResponse v.response) s (finish { v with rx := [] }) := hv.quietEnd hs hport v.response
  rw [hdone] at hquiet
  obtain ⟨hended, hchunker⟩ := ended_storeDst_of_quietEnd hquiet (writeDst v.dst bs)
  exact ⟨_, bs, hread.exec_ends hend rfl hs (regionRefusal_inside hpos htop), hreply, hread.path.trace_eq, hended,
    hchunker, hquiet.mode, hquiet.window, hv.steady.flash, congrArg (writeDst · bs) hv.steady.dst⟩

/-- The bytes written to the buffer are its first ones, in order (R216). -/
theorem getElem?_writeDst {dst bs : List Byte} {j : Nat} (h : j < bs.length) : (writeDst dst bs)[j]? = bs[j]? :=
  List.getElem?_append_left h

/-! ### Where a load stops (R217, R55; log entry 18) -/

variable {address : Nat}

/-- A load while the window is not armed is refused, whatever its range (R217, R274). -/
theorem mmapLoad_unarmed (hw : s.window = none) : mmapLoad address n s = .refused .windowNotArmed := by
  rw [mmapLoad, if_pos (by simp [hw])]

/-- A load of no byte is refused at every address (D32). -/
theorem mmapLoad_empty (hw : s.window.isSome = true) : mmapLoad address 0 s = .refused .emptyLoad := by
  rw [mmapLoad, if_neg (by simp [Option.isSome_iff_ne_none.mp hw]), if_pos rfl]

/-- A load that begins below the window or ends above it faults (R55). -/
theorem mmapLoad_outside (hw : s.window.isSome = true) (hn : 1 ≤ n)
    (hout : address < s.params.mmapBase ∨ s.params.mmapBase + flashBytes s.params < address + n) :
    mmapLoad address n s = .fault .outsideWindow := by
  rw [mmapLoad, if_neg (by simp [Option.isSome_iff_ne_none.mp hw]), if_neg (by omega), if_pos hout]

end

end Sys2Proof.Machine

namespace Sys2Proof.Proofs
open Sys2Proof.Machine Sys2Proof.Claims

/-- Settles O20: the range decides the refusals, and the bytes of the one read begin the buffer. -/
theorem regionReadOperation : Obligations.RegionReadOperation := by
  refine ⟨fun s a n hs => ⟨?_, fun hpos htop => ?_⟩, fun s a n hs hpos htop => ?_⟩
  · rintro rfl
    exact exec_of_refused rfl hs (regionRefusal_zero a)
  · exact exec_of_refused rfl hs (regionRefusal_past hpos htop)
  · obtain ⟨t, bs, hexec, hreply, htrace, hended, hchunker, hmode, hwindow, hflash, hdst⟩ :=
      readRegion_completes hs hpos htop
    refine ⟨t, bs, hexec, hreply, htrace, hended, hchunker, hmode, hwindow, hflash, fun i hi => ?_⟩
    have hlen : bs.length = n := hreply.1
    rw [hdst, getElem?_writeDst (by omega)]

/-- Settles O19: one read of RDID, its bytes handed over. -/
theorem identifyOperation : Obligations.IdentifyOperation := fun _ hs => readIdentify_completes hs

/-- Settles O39: the load is the host's move, and its stops are those of the window in their order. -/
theorem windowLoadStops : Obligations.WindowLoadStops := by
  intro s address k ms hr hb ha
  rw [step_of_not_busy hr hb, hostMove, ha]
  refine ⟨fun hw => mmapLoad_unarmed hw, ?_, fun hw hk hout => mmapLoad_outside hw hk hout⟩
  rintro hw rfl
  exact mmapLoad_empty hw

end Sys2Proof.Proofs

/-! PROOFS. Acceptance, the fault and the busy-wait (spec/60_exceptions.md). The busy-wait as a state that one poll answered
with WIP set leads to again. The acceptance rule of each operation as that of the statements, with the last condition, on
`Src`, beside it; and that a block that is Ready answers every operation it accepts. Then the sticky state Halted. -/
namespace Sys2Proof.Machine
open Sys2Proof.Claims

section
variable {k k' l body : List Stmt} {s t u v w : State} {e : Event} {i : Instr} {code : BitVec 5} {o : Operands}
  {b : Byte} {bytes rs : List Byte} {r : Request} {ms : List HostMove}

/-! ### The busy-wait goes on (R172, R233) -/

/-- A call is made from wherever local computation leads to it. -/
theorem Calls.of_nextCall_eq (h : Calls l w e k' v) (hn : nextCall k u = nextCall l w) (htrace : u.trace = w.trace) :
    Calls k u e k' v := by
  obtain ⟨c, w', hcall, hi, hv⟩ := h
  exact ⟨c, w', hn.trans hcall, hi, htrace ▸ hv⟩

/-- Under the oracle, a block inside WAIT_UNTIL_IDLE that last read WIP set, with `k` to follow and the bytes `rs` lined
up. -/
structure Polling (k : List Stmt) (rs : List Byte) (s : State) : Prop where
  noReset : s.resetPending = false
  busy : s.ctl = .busy
  unarmed : s.window = none
  env : s.env = .oracle
  rest : s.rest = .testWip :: k
  wip : wipSet (firstByte s.rx) = true
  replies : s.replies = rs

/-- A poll that is answered with WIP set is one step, and the block waits as before (R10, R172). -/
theorem Polling.step_polls (h : Polling k (b :: rs) s) (hb : b &&& 0x01 ≠ 0) :
    ∃ t, step s = .next t ∧ Polling k rs t ∧ t.mode = s.mode ∧
      t.trace = s.trace ++ [registerRead 0x05 (width s.qia) b] := by
  obtain ⟨v, hpoll, hrx, hv⟩ := registerRead_calls_of_oracle (u := { s with rx := [] }) (k := waitUntilIdle ++ k)
    (k' := .testWip :: k) (.inl rfl) h.env h.replies h.unarmed rfl
  have hcall : Calls s.rest s (registerRead 0x05 (width s.qia) b) (.testWip :: k) v := by
    rw [h.rest]
    exact hpoll.of_nextCall_eq (nextCall_testWip_of_set h.wip k) rfl
  obtain ⟨hrest, hctl, hreset, -⟩ := hcall.leaves
  have hset : wipSet (firstByte v.rx) = true := by rw [hrx]; exact wipSet_of_set hb
  have hsettle : settle v = v := settle_of_call (by rw [hrest]; exact nextCall_testWip_of_set hset k)
  have hstep : step s = .next v := by rw [step_of_busy h.noReset h.busy, hcall.blockStep, hsettle]
  exact ⟨v, hstep, ⟨hreset.trans h.noReset, hctl.trans h.busy, hv.unarmed, hv.steady.kept.env.trans h.env, hrest, hset,
    hv.replies⟩, hv.mode, hcall.path.trace_eq⟩

/-- However many polls are answered with WIP set, the block still waits (R233). -/
theorem Polling.runsTo (h : Polling k (bytes ++ rs) s) (hbytes : ∀ b ∈ bytes, b &&& 0x01 ≠ 0) :
    ∃ t, RunsTo bytes.length s t ∧ Polling k rs t ∧ t.mode = s.mode ∧ t.trace = s.trace ++ polls s.qia bytes := by
  induction bytes generalizing s with
  | nil => exact ⟨s, rfl, h, rfl, by simp [polls]⟩
  | cons b bytes ih =>
    obtain ⟨hb, hbytes⟩ := List.forall_mem_cons.mp hbytes
    obtain ⟨u, hstep, hu, humode, hutrace⟩ := h.step_polls hb
    obtain ⟨t, hrun, ht, htmode, httrace⟩ := ih hu hbytes
    rw [qia_of_mode humode] at httrace
    exact ⟨t, RunsTo.succ hstep hrun, ht, htmode.trans humode, by simp [httrace, hutrace, polls]⟩

/-! ### The acceptance rule (R234, R236) -/

/-- What items 5 and 6 of R234 refuse, of an operation that takes a range or none. -/
def rangeRefusal : Option (Addr × Nat) → Option Refusal
  | none => none
  | some (a, n) => regionRefusal a n

/-- An operation whose operands are refused for their range, then for the reason `last` if there is one, is refused for the
first condition of R234 that fails, then for `last`. -/
theorem acceptRefusal_eq_firstFailure {range : Option (Addr × Nat)} {last : Option Refusal}
    (ho : operandRefusal o s.src = (rangeRefusal range).or last) :
    acceptRefusal o s = (firstFailure s range).or last := by
  cases hc : s.ctl with
  | halted => simp [acceptRefusal, firstFailure, hc]
  | busy => simp [acceptRefusal, firstFailure, hc]
  | idle =>
    by_cases hm : s.mode = .memoryMapped
    · simp [acceptRefusal, firstFailure, hc, hm]
    · simp only [acceptRefusal, firstFailure, hc, hm, if_false, reduceCtorEq, ho]
      rcases range with _ | ⟨a, n⟩ <;> rfl

/-- Such an operation, with a `Src` that is not long enough as `last`, is refused in the order of R236, and is taken where
the block answers its first step. -/
theorem acceptedUnless_of_request {range : Option (Addr × Nat)} {enough : Prop} [Decidable enough]
    (hw : s.mode ≠ .memoryMapped → s.window = none) (hi : exec i s = request code o body s)
    (ho : operandRefusal o s.src = (rangeRefusal range).or (if enough then none else some .shortSource))
    (hanswers : Ready s → operandRefusal o s.src = none → ∃ t, blockStepWith runBus (accept code o body s) = .next t) :
    AcceptedUnless i range enough s := by
  have hacc := acceptRefusal_eq_firstFailure ho
  unfold AcceptedUnless
  cases hf : firstFailure s range with
  | some r => simp [hi, request, hacc, hf]
  | none =>
    refine ⟨fun he => ?_, fun he => by simp [hi, request, hacc, hf, he]⟩
    obtain ⟨hidle, hmode, hop⟩ := acceptRefusal_none (s := s) (o := o) (by simp [hacc, hf, he])
    have hready : Ready s := ⟨hidle, hmode, hw hmode⟩
    rw [exec_of_accepted hi hready hop]
    exact hanswers hready hop

/-- A block that is Ready answers the first step of Sound pseudocode (R114). -/
theorem accept_answers_of_sound (hbody : Sound false body) (hs : Ready s) :
    ∃ t, blockStepWith runBus (accept code o body s) = .next t := by
  obtain ⟨t, hstep, -⟩ := blockStep_sound (s := accept code o body s) ⟨false, hbody, nofun⟩
    ((accept_window ..).trans (window_of_ready hs))
  exact ⟨t, hstep⟩

/-- An operation without a range and with Sound pseudocode is refused for the control state or the mode alone. -/
theorem acceptedUnless_of_sound (hw : s.mode ≠ .memoryMapped → s.window = none)
    (hi : exec i s = request code o body s) (ho : operandRefusal o s.src = none) (hbody : Sound false body) :
    AcceptedUnless i none True s :=
  acceptedUnless_of_request hw hi ho fun hs _ => accept_answers_of_sound hbody hs

variable {a : Addr} {n : Nat}

/-- PAGE_PROGRAM that is accepted answers, with its write-enable or the fault (R177, R236). -/
theorem accept_pageProgram_answers (hs : Ready s) (hpos : 1 ≤ n) :
    ∃ t, blockStepWith runBus (accept code o [.pageProgram a n 0] s) = .next t := by
  cases hpage : crossesPage a n with
  | true =>
    refine ⟨raiseFatal .pageBoundary (accept code o [.pageProgram a n 0] s), ?_⟩
    simp only [blockStepWith, accept_rest, nextCall, act, pageProgramAct_across hpage]
  | false => exact accept_answers_of_sound ⟨⟨hpos, hpage⟩, trivial⟩ hs

/-- WRITE_REGION is refused for its range, and then for a `Src` of too few bytes (R205; log entry 15). -/
theorem srcRegion_eq_or (a : Addr) (n : Nat) (src : List Byte) :
    operandRefusal (.srcRegion a n) src = (regionRefusal a n).or (if n ≤ src.length then none else some .shortSource) := by
  cases hr : regionRefusal a n with
  | some r => exact srcRegion_of_region hr
  | none => simp only [operandRefusal, hr, Option.none_or, ← not_le, ite_not]

/-! ### Halted (R238) -/

/-- A Halted block refuses every request, whatever its word (R234 item 1). -/
theorem step_request_of_halted (hr : s.resetPending = false) (hc : s.ctl = .halted) (ha : s.agenda = .request r :: ms) :
    step s = .refused .halted := by
  rw [step_of_not_busy hr (by simp [hc])]
  simp [hostMove, ha, hostRequest, hc]

/-- And every host operation. -/
theorem exec_refused_of_halted (hc : s.ctl = .halted) (hi : (hostCode i).isSome = true) :
    exec i s = .refused .halted := by
  obtain ⟨code, hcode⟩ := Option.isSome_iff_exists.mp hi
  obtain ⟨o, body, hreq⟩ := exec_request hcode
  simp [hreq, request, acceptRefusal, hc]

end

end Sys2Proof.Machine

namespace Sys2Proof.Proofs
open Sys2Proof.Machine Sys2Proof.Claims

/-- Settles O31: a busy-wait answered with WIP set is the same busy-wait again, by induction on the replies. -/
theorem busyWaitHasNoBound : Obligations.BusyWaitHasNoBound := by
  intro s k bytes rs hr hb hw henv hrest hwip hrs hbytes
  have hstart : Polling k (bytes ++ rs) s := ⟨hr, hb, hw, henv, hrest, wipSet_of_set hwip, hrs⟩
  obtain ⟨t, hrun, ht, hmode, htrace⟩ := hstart.runsTo hbytes
  exact ⟨t, hrun, ht.busy, ht.rest.trans hrest.symm, hmode, htrace, ht.replies⟩

/-- Settles O35: the acceptance rule refuses in the order of the statement, and the pseudocode of an accepted operation
answers, as it is Sound or, of PAGE_PROGRAM across a page, the fault; a request's code is tested by the decoder. -/
theorem requestsRefusedInOrder : Obligations.RequestsRefusedInOrder := by
  refine ⟨fun s a n v hw => ⟨acceptedUnless_of_sound hw rfl rfl (sound_resetBody (sound_enableQuadBody false)),
      acceptedUnless_of_sound hw rfl rfl (sound_resetBody (k := []) trivial),
      acceptedUnless_of_sound hw rfl rfl (sound_enableQuadBody false),
      acceptedUnless_of_sound hw rfl rfl ⟨trivial, trivial⟩,
      acceptedUnless_of_sound hw rfl rfl ⟨trivial, sound_mapTail true⟩,
      acceptedUnless_of_sound hw rfl rfl ⟨.inl rfl, trivial, trivial⟩,
      acceptedUnless_of_sound hw rfl rfl ⟨.inl rfl, trivial⟩,
      acceptedUnless_of_sound hw rfl rfl ⟨.inr rfl, trivial, trivial⟩,
      acceptedUnless_of_sound hw rfl rfl ⟨.inr (.inl rfl), trivial⟩,
      acceptedUnless_of_sound hw rfl rfl (sound_eraseBody rfl),
      acceptedUnless_of_sound hw rfl rfl (sound_eraseBody rfl),
      acceptedUnless_of_sound hw rfl rfl (sound_eraseBody rfl),
      acceptedUnless_of_sound hw rfl rfl (sound_eraseBody rfl), ?pageProgram, ?writeRegion,
      acceptedUnless_of_sound hw rfl rfl ⟨ofRow_busCall rfl trivial, trivial, trivial⟩, ?readRegion⟩,
    fun s r hb => by simp [hostRequest, hb],
    fun s r ms hr ha hcode => ⟨fun hidle => ?unassigned, fun hhalted => step_request_of_halted hr hhalted ha⟩⟩
  case pageProgram =>
    exact acceptedUnless_of_request (o := .srcPage a n) hw rfl Option.or_none.symm fun hs ho =>
      accept_pageProgram_answers hs (regionRefusal_none ho).1
  case writeRegion =>
    exact acceptedUnless_of_request hw rfl (srcRegion_eq_or a n s.src) fun hs _ =>
      accept_answers_of_sound ⟨trivial, trivial, trivial⟩ hs
  case readRegion =>
    exact acceptedUnless_of_request (o := .dstRegion a n) hw rfl Option.or_none.symm fun hs ho =>
      accept_answers_of_sound ⟨ofRow_busCall rfl (regionRefusal_none ho).1, trivial, trivial⟩ hs
  case unassigned =>
    exact (requestStepRunsInstruction s r ms hr hidle ha).2 _ (unassignedCodesSelectNothing r.word hcode)

/-- Settles O30: the fault, entered from the accepted request, names every field it changes. -/
theorem pageProgramFaults : Obligations.PageProgramFaults := fun _ _ _ hs hpos htop hpage =>
  exec_pageProgram_across hs hpos htop hpage

/-- Settles O37: no request is taken, and of the other steps waiting changes nothing and a window load only the agenda and
the word loaded. -/
theorem haltedIsSticky : Obligations.HaltedIsSticky := by
  refine ⟨fun s r ms hr hc ha => step_request_of_halted hr hc ha, fun s i hc hi => exec_refused_of_halted hc hi,
    fun s t hr hc hstep => ?_⟩
  rw [step_of_not_busy hr (by simp [hc])] at hstep
  rcases hostMove_next hstep with ⟨-, rfl⟩ | ⟨r, ms, i, -, hidle, -⟩ | ⟨address, k, ms, -, hload⟩
  · exact ⟨hc, rfl, rfl, rfl⟩
  · simp [hc] at hidle
  · obtain ⟨-, -, -, -, rfl⟩ := mmapLoad_next hload
    exact ⟨hc, rfl, rfl, rfl⟩

end Sys2Proof.Proofs

/-! PROOFS. The buffer of READ_REGION (spec/45_read_identify.md R216, spec/20_memory.md R58). A step that appends the event of
a read on the reference device was answered by it; so the bytes stored are those of its array. -/
namespace Sys2Proof.Machine
open Sys2Proof.Claims

section
variable {s t : State} {d : Descriptor} {n : Nat} {bs : List Byte}

/-- An event that is a read is that of a call with its descriptor and count, and names the bytes returned (R11). -/
theorem eventOf_eq_rd {kd : Kind} {d' : Descriptor} {n' : Nat} {tx reply : List Byte}
    (h : eventOf kd d' n' tx reply = .rd d n bs) : d' = d ∧ n' = n ∧ reply = bs := by
  cases kd <;> cases h
  exact ⟨rfl, rfl, rfl⟩

/-- The bytes of a read that a Busy step appends are the reference device's reply, the device and the parameters as they stood
before the step (D26). -/
theorem blockStep_reply_of_read (h : blockStepWith runBus s = .next t) (htrace : t.trace = s.trace ++ [.rd d n bs])
    (henv : s.env = .refFlash) (hn : 1 ≤ n) :
    ∃ u, u.params = s.params ∧ u.device = s.device ∧ bs = (refReply d n u).1 := by
  rcases blockStep_next h with ⟨c, k, s', i, d', n', hcall, -, -, -, rfl⟩ | ⟨s', hend, rfl⟩ | ⟨s', hend, rfl⟩
  · have hsame := nextCall_call_same hcall
    rw [(settle_outside _).1, transport_trace, ← hsame.trace] at htrace
    obtain ⟨rfl, rfl, rfl⟩ := eventOf_eq_rd (List.singleton_inj.mp (List.append_cancel_left htrace))
    refine ⟨{ s' with rest := k, tx := c.tx, count := c.count }, hsame.params, hsame.device, ?_⟩
    have hu : State.env { s' with rest := k, tx := c.tx, count := c.count } = .refFlash := hsame.env.trans henv
    rw [respond_read hu hn]
  · simp [(nextCall_ended_same hend).trace] at htrace
  · simp [(nextCall_fatal_same hend).trace] at htrace

/-- A region read that lies inside the array of the reference device returns its bytes, lowest address first (R58). -/
theorem blockStep_regionRead_bytes {a : Addr} (h : blockStepWith runBus s = .next t)
    (htrace : t.trace = s.trace ++ [.rd (regionRead a) n bs]) (henv : s.env = .refFlash) (hn : 1 ≤ n)
    (hin : a.toNat + n ≤ flashBytes s.params) : bs = (List.range n).map (fun j => flashAt s (a.toNat + j)) := by
  obtain ⟨u, hparams, hdevice, rfl⟩ := blockStep_reply_of_read h htrace henv hn
  have hreply := refReply_qread_inside (s := u) (hparams ▸ hin)
  simp only [flashAt, hparams, hdevice] at hreply
  exact hreply

/-- The bytes of the buffer past those written stay (R216; log entry 24). -/
theorem getElem?_writeDst_of_le {dst : List Byte} {j : Nat} (h : bs.length ≤ j) : (writeDst dst bs)[j]? = dst[j]? := by
  rw [writeDst, List.getElem?_append_right h, List.getElem?_drop, Nat.add_sub_cancel' h]

end

end Sys2Proof.Machine

namespace Sys2Proof.Proofs
open Sys2Proof.Machine Sys2Proof.Claims

/-- Settles O21: the bytes of the one read begin the buffer and the rest of it stays; on the reference device they are those of
the array. -/
theorem regionReadBuffer : Obligations.RegionReadBuffer := by
  intro s a n hs hpos htop
  obtain ⟨t, bs, hexec, ⟨hlen, -⟩, htrace, -, -, -, -, -, hdst⟩ := readRegion_completes hs hpos htop
  refine ⟨t, hexec, fun i hi => ?_, fun henv hin i hi => ?_⟩
  · rw [hdst, getElem?_writeDst_of_le (by omega)]
  · have hstep := (exec_of_accepted (o := .dstRegion a n) rfl hs (regionRefusal_inside hpos htop)).symm.trans hexec
    rw [hdst, getElem?_writeDst (by omega), blockStep_regionRead_bytes hstep htrace henv hpos hin]
    simp [hi, flashAt]

end Sys2Proof.Proofs

/-! PROOFS. Page safety (spec/70_reset_and_hazards.md R265, spec/20_memory.md R52). A call of more than one byte is a page
program, and one that stands at a position of the invariant stays inside its page; the statements that build their own call
send at most one byte. -/
namespace Sys2Proof.Machine
open Sys2Proof.Safety Sys2Proof.Claims

section
variable {s t : State} {c : Call} {k : List Stmt}

/-! ### Calls and statements that stay inside a page -/

/-- A call that, if it is a page program, stays inside its page (R52). -/
def Call.pageSafe (c : Call) : Prop :=
  ∀ a : Addr, decodeBus c.word = .ok (.qpp a) → a.toNat % Config.pageSize + c.tx.length ≤ Config.pageSize

/-- A statement that holds no call but such a one. -/
def Stmt.pageSafe : Stmt → Prop
  | .issue c => c.pageSafe
  | .readRegister _ | .writeRegister _ _ | .testQe | .raiseMode | .enterQpi | .setQpi | .setMapped | .testWip
  | .pageProgram _ _ _ | .startChunks | .chunkLoop | .advance | .returnBytes | .storeDst => True

/-- One byte is inside the page of every address. -/
theorem Call.pageSafe_of_short (h : c.tx.length ≤ 1) : c.pageSafe := by
  intro a _
  have hmod : a.toNat % Config.pageSize < Config.pageSize := Nat.mod_lt _ (by decide)
  omega

@[simp] theorem pageSafe_busCall_nil (i : Instr) (n : Nat) : (busCall i [] n).pageSafe :=
  Call.pageSafe_of_short (Nat.zero_le 1)

/-- A page program that passes the page check (R177). -/
theorem pageSafe_qpp {a : Addr} {tx : List Byte} (h : crossesPage a tx.length = false) :
    (busCall (.qpp a) tx 0).pageSafe := by
  intro a' ha'
  rw [busCall_word (i := .qpp a) rfl, decodeBus_pack (i := .qpp a) rfl] at ha'
  cases ha'
  exact Nat.le_of_not_lt (of_decide_eq_false h)

/-! ### What page-safe statements do -/

/-- PAGE_PROGRAM makes its write-enable first, or takes the fault (R177). -/
theorem pageProgramAct_pageSafe {a : Addr} {n off : Nat} {before l : List Stmt}
    (h : pageProgramAct a n off before s = .call c l t) : c.pageSafe := by
  unfold pageProgramAct at h
  split at h <;> cases h
  exact Call.pageSafe_of_short (Nat.zero_le 1)

theorem act_pageSafe {st : Stmt} {l : List Stmt} (hst : st.pageSafe) (h : act st s = .call c l t) : c.pageSafe := by
  cases st with
  | issue c' => cases h; exact hst
  | readRegister op => cases h; exact Call.pageSafe_of_short (Nat.zero_le 1)
  | writeRegister op v => cases h; exact Call.pageSafe_of_short (Nat.le_refl 1)
  | testQe =>
    simp only [act] at h
    split at h <;> cases h
    exact Call.pageSafe_of_short (Nat.le_refl 1)
  | testWip | enterQpi =>
    simp only [act] at h
    split at h <;> cases h
    exact Call.pageSafe_of_short (Nat.zero_le 1)
  | pageProgram a n off => exact pageProgramAct_pageSafe h
  | chunkLoop =>
    simp only [act] at h
    split at h
    · cases h
    · exact pageProgramAct_pageSafe h
  | raiseMode | setQpi | setMapped | startChunks | advance | returnBytes | storeDst => cases h

/-- The next call of page-safe statements is page-safe. -/
theorem nextCall_pageSafe {l : List Stmt} (hk : ∀ st ∈ k, st.pageSafe) (h : nextCall k s = .call c l t) :
    c.pageSafe := by
  induction k generalizing s with
  | nil => cases h
  | cons st k ih =>
    obtain ⟨hst, hk⟩ := List.forall_mem_cons.mp hk
    simp only [nextCall] at h
    split at h
    · exact ih hk h
    · cases h
      exact act_pageSafe hst ‹_›
    · cases h

/-- The event of a page-safe call is page-safe: of the rows of R86 only QPP has its opcode. -/
theorem pageSafe_eventOf {i : Instr} {d : Descriptor} (hc : c.pageSafe) (hi : decodeBus c.word = .ok i)
    (hd : busDescriptor i = some d) (n : Nat) (reply : List Byte) : PageSafe (eventOf (kindOf i) d n c.tx reply) := by
  cases i <;> cases hd
  case qpp a => exact fun _ => hc a hi
  case srp | wrsr1 | wrcr => exact fun hop => absurd hop (by simp [registerAccess, opSRP, opWRSR1, opWRCR])
  all_goals trivial

/-- A Busy step at page-safe statements appends no program that crosses a page. -/
theorem blockStep_pageSafe (hrest : ∀ st ∈ s.rest, st.pageSafe) (htrace : ∀ e ∈ s.trace, PageSafe e)
    (h : blockStepWith runBus s = .next t) : ∀ e ∈ t.trace, PageSafe e := by
  rcases blockStep_next h with ⟨c, k, s', i, d, n, hn, hi, hd, -, rfl⟩ | ⟨s', hn, rfl⟩ | ⟨s', hn, rfl⟩
  · have hevent := pageSafe_eventOf (nextCall_pageSafe hrest hn) hi hd n
    rw [(settle_outside _).1, transport_trace, List.forall_mem_append, (nextCall_call_same hn).trace]
    exact ⟨htrace, by simpa using hevent _⟩
  · rwa [finish_trace, (nextCall_ended_same hn).trace]
  · rwa [raiseFatal_trace, (nextCall_fatal_same hn).trace]

/-! ### Where page-safe statements stand -/

section
variable (hk : ∀ st ∈ k, st.pageSafe)
include hk

theorem resetAt_pageSafe : ∀ l ∈ resetAt k, ∀ st ∈ l, st.pageSafe := by
  simpa [resetAt, waitAt, waitUntilIdle, Stmt.pageSafe, or_imp, forall_and] using hk

theorem qpiAt_pageSafe : ∀ l ∈ qpiAt k, ∀ st ∈ l, st.pageSafe := by
  simpa [qpiAt, quadAt, qpiTail, Stmt.pageSafe, or_imp, forall_and] using hk

theorem quadAt_pageSafe : ∀ l ∈ quadAt k, ∀ st ∈ l, st.pageSafe := by
  simpa [quadAt, Stmt.pageSafe, or_imp, forall_and] using hk

theorem programAt_pageSafe {a : Addr} {tx : List Byte} (h : crossesPage a tx.length = false) :
    ∀ l ∈ programAt a tx k, ∀ st ∈ l, st.pageSafe := by
  simpa [programAt, waitAt, waitUntilIdle, Stmt.pageSafe, or_imp, forall_and, pageSafe_qpp h] using hk

end

theorem eraseAt_pageSafe (cmd : Instr) : ∀ l ∈ eraseAt cmd, ∀ st ∈ l, st.pageSafe := by
  simp [eraseAt, waitAt, waitUntilIdle, Stmt.pageSafe, or_imp, forall_and]

/-- A chunk of WRITE_REGION is a slice of its length, which the chunk law keeps inside the page (R201, R202). -/
theorem chunkSlice_not_crossesPage (h : chunkInv s) :
    crossesPage (BitVec.ofNat 24 s.cursor) (srcSlice s.src s.srcOff s.chunkLen).length = false := by
  rw [chunkSlice_length h]
  obtain ⟨-, -, -, -, -, hlaw⟩ := h
  exact hlaw ▸ chunk_not_crossesPage _ _

/-- Every position of the invariant is of page-safe statements (R23). -/
theorem position_pageSafe (h : position s) : ∀ st ∈ s.rest, st.pageSafe := by
  have hnil : ∀ st ∈ ([] : List Stmt), st.pageSafe := nofun
  have hquad : ∀ st ∈ enableQuadBody, st.pageSafe := by simp [enableQuadBody, Stmt.pageSafe]
  have hmap : ∀ st ∈ mapTail, st.pageSafe := by simp [mapTail, Stmt.pageSafe]
  unfold position at h
  split at h
  · exact h.elim (resetAt_pageSafe hquad _) (quadAt_pageSafe hnil _)
  · exact resetAt_pageSafe hnil _ h
  · exact quadAt_pageSafe hnil _ h
  · exact qpiAt_pageSafe hnil _ h
  · exact h.elim (qpiAt_pageSafe hmap _) (fun hrest => hrest ▸ hmap)
  · exact eraseAt_pageSafe _ _ h
  · exact eraseAt_pageSafe _ _ h
  · exact eraseAt_pageSafe _ _ h
  · exact eraseAt_pageSafe _ _ h
  · obtain ⟨-, hpage, tx, ⟨hlen, -⟩, hrest⟩ := h
    exact programAt_pageSafe hnil (hlen ▸ hpage) _ hrest
  · obtain ⟨hinv, hrest⟩ := h
    have hnext : ∀ st ∈ [Stmt.advance, .chunkLoop], st.pageSafe := by simp [Stmt.pageSafe]
    exact programAt_pageSafe hnext (chunkSlice_not_crossesPage hinv) _ hrest
  · exact h.elim

/-- So is the pseudocode of every operation as it starts: PAGE_PROGRAM holds no call until it has passed its check. -/
theorem exec_pageSafe_request {i : Instr} {code : BitVec 5} (h : hostCode i = some code) :
    ∃ o body, (∀ s, exec i s = request code o body s) ∧ ∀ st ∈ body, st.pageSafe := by
  cases i <;> cases h
  all_goals exact ⟨_, _, fun _ => rfl, by simp [resetBody, enableQuadBody, eraseBody, waitUntilIdle, Stmt.pageSafe]⟩

/-- A move of the host appends no program that crosses a page. -/
theorem hostMove_pageSafe (htrace : ∀ e ∈ s.trace, PageSafe e) (h : hostMove exec s = .next t) :
    ∀ e ∈ t.trace, PageSafe e := by
  rcases hostMove_next h with ⟨-, rfl⟩ | ⟨r, ms, i, -, -, hi, hrun⟩ | ⟨address, k, ms, -, hload⟩
  · exact htrace
  · obtain ⟨code, hcode⟩ := decodeHost_ok hi
    obtain ⟨o, body, hreq, hbody⟩ := exec_pageSafe_request hcode
    obtain ⟨-, hstep⟩ := request_next (hreq _ ▸ hrun)
    exact blockStep_pageSafe (by simpa using hbody) (by simpa using htrace) hstep
  · obtain ⟨-, -, -, -, rfl⟩ := mmapLoad_next hload
    exact htrace

end

end Sys2Proof.Machine

namespace Sys2Proof.Proofs
open Sys2Proof.Machine Sys2Proof.Safety Sys2Proof.Claims

/-- Settles O47: hardware reset clears the trace, a Busy block stands at a position of the invariant, and a request starts an
operation of page-safe statements. -/
theorem noProgramCrossesPage : Obligations.NoProgramCrossesPage := by
  intro s t hinv hstep htrace
  rcases step_next hstep with ⟨-, rfl⟩ | ⟨-, hb, hblock⟩ | ⟨-, -, hmove⟩
  · simp
  · exact blockStep_pageSafe (position_pageSafe (hinv.busy hb).2) htrace hblock
  · exact hostMove_pageSafe htrace hmove

end Sys2Proof.Proofs

/-! PROOFS. Hardware reset, the launch premise and the end of a run (spec/70_reset_and_hazards.md R260, R262, R276, R282). INIT and
ENABLE_QUAD hold `raiseMode` in their pseudocode, and it stays among the statements to run until it has run; so the block is past
SingleWire when they end, and from there no step but hardware reset goes back. -/
namespace Sys2Proof.Machine
open Sys2Proof.Safety Sys2Proof.Claims

section
variable {s t : State} {k : List Stmt}

/-! ### No step goes back to SingleWire (R134) -/

/-- The state a statement leads to, whatever it does. -/
def Act.state : Act → State
  | .skip s => s
  | .call _ _ s => s
  | .fatal s => s

theorem ActKeepsMode.state_mode {a : Act} (h : ActKeepsMode s a) : a.state.mode = s.mode := by
  cases a with
  | skip t => exact h
  | call c before t => exact h.1
  | fatal t => exact h

theorem act_past_singleWire (st : Stmt) (h : s.mode ≠ .singleWire) : (act st s).state.mode ≠ .singleWire := by
  cases hkeep : st.keepsMode with
  | true => rwa [(act_keepsMode hkeep s).state_mode]
  | false =>
    cases st
    case raiseMode => rwa [act_raiseMode_other h]
    case enterQpi =>
      simp only [act]
      split <;> exact h
    case setQpi | setMapped => nofun
    all_goals cases hkeep

theorem nextCall_past_singleWire (k : List Stmt) (h : s.mode ≠ .singleWire) :
    (nextCall k s).state.mode ≠ .singleWire := by
  induction k generalizing s with
  | nil => exact h
  | cons st k ih =>
    have hact := act_past_singleWire st h
    simp only [nextCall]
    cases ha : act st s with
    | skip t => exact ih (by rwa [ha] at hact)
    | call c before t => rwa [ha] at hact
    | fatal t => rwa [ha] at hact

theorem settle_past_singleWire (h : s.mode ≠ .singleWire) : (settle s).mode ≠ .singleWire := by
  have hn := nextCall_past_singleWire s.rest h
  rcases settle_cases s with ⟨hs, -⟩ | ⟨t, ht, hs⟩ | ⟨t, ht, hs⟩ <;> rw [hs]
  · exact h
  · rwa [ht] at hn
  · rwa [ht] at hn

theorem blockStep_past_singleWire (h : s.mode ≠ .singleWire) (hstep : blockStepWith runBus s = .next t) :
    t.mode ≠ .singleWire := by
  have hn := nextCall_past_singleWire s.rest h
  rcases blockStep_next hstep with ⟨c, k, u, i, d, n, ht, -, -, -, rfl⟩ | ⟨u, ht, rfl⟩ | ⟨u, ht, rfl⟩ <;> rw [ht] at hn
  · exact settle_past_singleWire (by rwa [transport_mode])
  · exact hn
  · exact hn

theorem hostMove_past_singleWire (h : s.mode ≠ .singleWire) (hmove : hostMove exec s = .next t) :
    t.mode ≠ .singleWire := by
  rcases hostMove_next hmove with ⟨-, rfl⟩ | ⟨r, ms, i, -, -, hi, hrun⟩ | ⟨address, n, ms, -, hload⟩
  · exact h
  · obtain ⟨code, hcode⟩ := decodeHost_ok hi
    obtain ⟨o, body, hreq⟩ := exec_request hcode
    obtain ⟨-, hstep⟩ := request_next (hreq _ ▸ hrun)
    exact blockStep_past_singleWire (by simpa using h) hstep
  · obtain ⟨-, -, -, -, rfl⟩ := mmapLoad_next hload
    exact h

theorem step_past_singleWire (hr : s.resetPending = false) (h : s.mode ≠ .singleWire) (hstep : step s = .next t) :
    t.mode ≠ .singleWire := by
  rcases step_next hstep with ⟨hpending, -⟩ | ⟨-, -, hblock⟩ | ⟨-, -, hmove⟩
  · simp [hr] at hpending
  · exact blockStep_past_singleWire h hblock
  · exact hostMove_past_singleWire h hmove

/-! ### `raiseMode` is run before its operation ends (R131) -/

/-- The mode is past SingleWire, or the statements `k` hold the one that makes it so. -/
def Raising (k : List Stmt) (s : State) : Prop := s.mode ≠ .singleWire ∨ .raiseMode ∈ k

/-- What local computation from such statements leaves; of the fault nothing is asked. -/
def PendingRaising : Pending → Prop
  | .call _ l t => Raising l t
  | .ended t => t.mode ≠ .singleWire
  | .fatal _ => True

theorem PendingRaising.of_past {p : Pending} (h : p.state.mode ≠ .singleWire) : PendingRaising p := by
  cases p with
  | call c l t => exact .inl h
  | ended t => exact h
  | fatal t => trivial

theorem act_raiseMode_past (s : State) : ∃ t, act .raiseMode s = .skip t ∧ t.mode ≠ .singleWire := by
  by_cases h : s.mode = .singleWire
  · exact ⟨_, act_raiseMode_singleWire h, nofun⟩
  · exact ⟨s, act_raiseMode_other h, h⟩

theorem nextCall_raising (h : Raising k s) : PendingRaising (nextCall k s) := by
  rcases h with hmode | hmem
  · exact .of_past (nextCall_past_singleWire k hmode)
  induction k generalizing s with
  | nil => cases hmem
  | cons st k ih =>
    simp only [nextCall]
    rcases List.mem_cons.mp hmem with rfl | htail
    · obtain ⟨t, ht, hmode⟩ := act_raiseMode_past s
      rw [ht]
      exact .of_past (nextCall_past_singleWire k hmode)
    · cases act st s with
      | skip t => exact ih htail
      | call c before t => exact .inr (List.mem_append_right before htail)
      | fatal t => trivial

/-- Quad-Enable has been run, or is still to be run by the operation in progress, or never will be: the block has halted. -/
def Enabling (s : State) : Prop := s.ctl = .halted ∨ s.mode ≠ .singleWire ∨ s.ctl = .busy ∧ .raiseMode ∈ s.rest

theorem settle_enabling (hb : s.ctl = .busy) (h : Raising s.rest s) : Enabling (settle s) := by
  have hn := nextCall_raising h
  rcases settle_cases s with ⟨hs, -⟩ | ⟨t, ht, hs⟩ | ⟨t, ht, hs⟩ <;> rw [hs]
  · exact .inr (h.imp_right fun hmem => ⟨hb, hmem⟩)
  · rw [ht] at hn
    exact .inr (.inl hn)
  · exact .inl rfl

theorem blockStep_enabling (hb : s.ctl = .busy) (h : Raising s.rest s) (hstep : blockStepWith runBus s = .next t) :
    Enabling t := by
  have hn := nextCall_raising h
  rcases blockStep_next hstep with ⟨c, k, u, i, d, n, ht, -, -, -, rfl⟩ | ⟨u, ht, rfl⟩ | ⟨u, ht, rfl⟩ <;> rw [ht] at hn
  · refine settle_enabling ?_ ?_
    · rw [transport_ctl]
      exact (nextCall_call_same ht).ctl.trans hb
    · rwa [Raising, transport_mode, transport_rest]
  · exact .inr (.inl hn)
  · exact .inl rfl

theorem step_enabling (hr : s.resetPending = false) (h : Enabling s) (hstep : step s = .next t) : Enabling t := by
  rcases h with hhalted | hmode | ⟨hb, hmem⟩
  · obtain ⟨-, -, hsticky⟩ := Proofs.haltedIsSticky
    exact .inl (hsticky s t hr hhalted hstep).1
  · exact .inr (.inl (step_past_singleWire hr hmode hstep))
  · exact blockStep_enabling hb (.inr hmem) (step_of_busy hr hb ▸ hstep)

/-! ### The launch premise (R262) -/

/-- What every step but hardware reset keeps, every run keeps that begins with no reset pending. -/
theorem RunsTo.keeps_of_no_reset {P : State → Prop}
    (hP : ∀ u v, u.resetPending = false → P u → step u = .next v → P v) {n : Nat} (hr : s.resetPending = false)
    (hs : P s) (h : RunsTo n s t) : P t ∧ t.resetPending = false :=
  RunsTo.keeps (P := fun u => P u ∧ u.resetPending = false)
    (fun _ _ hu hstep => ⟨hP _ _ hu.2 hu.1 hstep, step_resetPending hstep⟩) ⟨hs, hr⟩ h

/-- The two operations a boot ends with hold `raiseMode`. -/
theorem exec_request_of_enabling {i : Instr} (h : i = .init ∨ i = .enableQuad) :
    ∃ code o body, (∀ s, exec i s = request code o body s) ∧ Stmt.raiseMode ∈ body := by
  rcases h with rfl | rfl <;> exact ⟨_, _, _, fun _ => rfl, by decide⟩

/-- A run of some steps begins with one. -/
theorem RunsTo.head {n : Nat} (h : RunsTo (n + 1) s t) : ∃ u, step s = .next u ∧ RunsTo n u t := by
  simp only [RunsTo, Host.Core.run] at h
  split at h
  · exact ⟨_, ‹_›, h⟩
  · cases h
  · cases h

/-- Where INIT or ENABLE_QUAD has completed, Quad-Enable has been run. -/
theorem completes_past_singleWire {i : Instr} (hi : i = .init ∨ i = .enableQuad) (h : Completes i s t) :
    t.mode ≠ .singleWire ∧ t.resetPending = false := by
  obtain ⟨hidle, hr, hdone, r, n, ha, hword, hrun⟩ := h
  cases n with
  | zero =>
    cases hrun
    exact absurd ha.symm (List.cons_ne_self _ _)
  | succ n =>
    obtain ⟨u, hstep, hrun⟩ := RunsTo.head hrun
    obtain ⟨code, o, body, hreq, hbody⟩ := exec_request_of_enabling hi
    have hexec := ((Proofs.requestStepRunsInstruction s r _ hr hidle ha).1 i hword).symm.trans hstep
    obtain ⟨-, hblock⟩ := request_next (hreq _ ▸ hexec)
    have hstart : Enabling u := blockStep_enabling (accept_ctl ..) (.inr (by rwa [accept_rest])) hblock
    obtain ⟨hend, hr'⟩ :=
      RunsTo.keeps_of_no_reset (fun _ _ => step_enabling) (step_resetPending hstep) hstart hrun
    simp only [Enabling, hdone, reduceCtorEq, false_and, false_or, or_false] at hend
    exact ⟨hend, hr'⟩

/-- Operations that completed one after the other end with the last. -/
theorem CompletesAll.last {ops : List Instr} {i : Instr} (h : CompletesAll (ops ++ [i]) s t) : ∃ u, Completes i u t := by
  induction ops generalizing s with
  | nil =>
    obtain ⟨u, hu, rfl⟩ := h
    exact ⟨s, hu⟩
  | cons j ops ih =>
    obtain ⟨u, -, hrest⟩ := h
    exact ih hrest

/-- A boot ends with INIT or ENABLE_QUAD (R262). -/
theorem IsBoot.last {ops : List Instr} (h : IsBoot ops) : ∃ l i, (i = .init ∨ i = .enableQuad) ∧ ops = l ++ [i] := by
  rcases h with rfl | ⟨reads, -, rfl⟩
  · exact ⟨[], .init, .inl rfl, rfl⟩
  · exact ⟨.reset :: reads, .enableQuad, .inr rfl, rfl⟩

/-! ### The end of a run (R282) -/

/-- A good end: the block is Idle, and what the host has left are loads. -/
theorem goodEnd_iff (s : State) : goodEnd s = true ↔ s.ctl = .idle ∧ ∀ r, HostMove.request r ∉ s.agenda := by
  have hrequests : requestsLeft s = 0 ↔ ∀ r, HostMove.request r ∉ s.agenda := by
    rw [requestsLeft, List.countP_eq_zero]
    refine ⟨fun h r hr => h _ hr rfl, fun h m hm => ?_⟩
    cases m with
    | request r => exact absurd hm (h r)
    | load address n => nofun
  rw [goodEnd, Bool.and_eq_true, decide_eq_true_iff, decide_eq_true_iff, hrequests]

/-- A run is over where the block is not Busy and refuses each request that is left. -/
theorem runOver_of_refused (hb : s.ctl ≠ .busy)
    (h : ∀ r, .request r ∈ s.agenda → ∃ f, step { s with agenda := [.request r] } = .refused f) : runOver s = true := by
  rw [runOver, Bool.and_eq_true, List.all_eq_true]
  refine ⟨decide_eq_true hb, fun m hm => ?_⟩
  cases m with
  | request r =>
    obtain ⟨f, hf⟩ := h r hm
    simp [refusesAt, hf]
  | load address n => rfl

/-- A block that is Halted, or Idle in MemoryMapped, refuses every request, whatever its word (R136, R238). -/
theorem step_refused_of_terminal {r : Request} {ms : List HostMove} (hr : s.resetPending = false)
    (hc : s.ctl = .halted ∨ s.ctl = .idle ∧ s.mode = .memoryMapped) (ha : s.agenda = .request r :: ms) :
    ∃ f, step s = .refused f := by
  rcases hc with hhalted | ⟨hidle, hm⟩
  · exact ⟨_, step_request_of_halted hr hhalted ha⟩
  · obtain ⟨hok, herror⟩ := Proofs.requestStepRunsInstruction s r ms hr hidle ha
    cases hword : decodeHost r.word with
    | error e => exact ⟨_, herror e hword⟩
    | ok i =>
      obtain ⟨code, hcode⟩ := decodeHost_ok hword
      exact ⟨_, (hok i hword).trans (exec_refused_of_mapped hidle hm (Option.isSome_of_eq_some hcode))⟩

end

end Sys2Proof.Machine

namespace Sys2Proof.Proofs
open Sys2Proof.Machine Sys2Proof.Safety Sys2Proof.Claims

/-- Settles O3: the step is the reset, and the values stand in it. -/
theorem hardwareResetStep : Obligations.HardwareResetStep := fun s hr =>
  ⟨hardwareReset s, step_of_resetPending hr, rfl, rfl, rfl, rfl, rfl, rfl, rfl, rfl, rfl, rfl, rfl, rfl⟩

/-- Settles O55: the boot ends with an operation that has run Quad-Enable, and every later step keeps the mode past
SingleWire. -/
theorem launchedStatesAreQuadEnabled : Obligations.LaunchedStatesAreQuadEnabled := by
  rintro s ⟨u, b, ops, n, hboot, hops, hrun⟩
  obtain ⟨l, i, hi, rfl⟩ := IsBoot.last hboot
  obtain ⟨v, hlast⟩ := CompletesAll.last hops
  obtain ⟨hmode, hr⟩ := completes_past_singleWire hi hlast
  exact RunsTo.keeps_of_no_reset (P := fun v => v.mode ≠ .singleWire) (fun _ _ => step_past_singleWire) hr hmode hrun

/-- Settles O56: no request is left, so a step that is no reset waits, or is a load, which changes none of what is named. -/
theorem goodEndIsFinal : Obligations.GoodEndIsFinal := by
  refine ⟨fun s hgood => ?_, fun s t hgood hr hstep => ?_⟩
  · obtain ⟨hidle, hleft⟩ := (goodEnd_iff s).mp hgood
    exact runOver_of_refused (by simp [hidle]) fun r hmem => absurd hmem (hleft r)
  · obtain ⟨hidle, hleft⟩ := (goodEnd_iff s).mp hgood
    rw [step_of_not_busy hr (by simp [hidle])] at hstep
    rcases hostMove_next hstep with ⟨-, rfl⟩ | ⟨r, ms, i, ha, -⟩ | ⟨address, k, ms, ha, hload⟩
    · exact ⟨hgood, rfl, rfl, rfl⟩
    · exact absurd (ha ▸ List.mem_cons_self) (hleft r)
    · obtain ⟨-, -, -, -, rfl⟩ := mmapLoad_next hload
      refine ⟨(goodEnd_iff _).mpr ⟨hidle, fun r hmem => hleft r ?_⟩, rfl, rfl, rfl⟩
      exact ha ▸ List.mem_cons_of_mem _ hmem

/-- Settles O57: such a block refuses each request that is left. -/
theorem terminalStatesEndTheRun : Obligations.TerminalStatesEndTheRun := by
  intro s hr hc
  have hb : s.ctl ≠ .busy := by rcases hc with hhalted | ⟨hidle, -⟩ <;> simp [*]
  exact ⟨runOver_of_refused hb fun _ _ => step_refused_of_terminal hr hc rfl, goodEnd_iff s⟩

end Sys2Proof.Proofs
